-- ==== Sys2Proof/Word.lean ====
section
/-! DEFINITION. The sizes of the values the hardware holds: bytes, 64-bit words and the
fixed register files of them (spec/00_scope.md R6, R8; spec/30_encoding.md R70 to R73). -/

namespace Sys2Proof

/-- `byte`, 8 bits (R8). -/
abbrev Byte := BitVec 8

/-- `word`, `W = 64` bits (R6, R8). -/
abbrev Word := BitVec 64

/-- Format `BUF32`: 32 bytes, index 0 first (R70). -/
abbrev Buf32 := Vector Byte 32

/-- Format `W4`: a field element as four words, word 0 least significant (R71). -/
abbrev W4 := Vector Word 4

/-- Format `W5`: the shift buffer (R73). -/
abbrev W5 := Vector Word 5

/-- Format `W8`: the double-width product (R72). -/
abbrev W8 := Vector Word 8

end Sys2Proof
end

