-- ==== Sys2Proof/Config.lean ====
section
/-! DEFINITION. What the spec leaves to the implementation (spec/00_scope.md R7) and the free
values: constants without a body, so that nothing can be proved of the value they take. -/

namespace Sys2Proof.Config

/-- `cycles_per_step` (R7, R188; D2): how many clock cycles the micro-operation with this
sequencer word takes. Any positive number. It is a function of the code alone, which is R188's one
requirement. Log entry 9. -/
opaque cyclesPerStep : BitVec 12 → PNat

/-- FREE VALUE: the byte that the n-th draw yields. `RESET` leaves the byte buffers unspecified
(R180). Log entry 2. -/
opaque freeByte : Nat → Byte

/-- FREE VALUE: the word that the n-th draw yields. `RESET` leaves the word registers unspecified
(R180). Log entry 2. -/
opaque freeWord : Nat → Word

end Sys2Proof.Config
end

