-- ==== Sys2Proof/Syntax.lean ====
section
/-! DEFINITION. The operations: one constructor per row of spec/opcode_table.json, the ten
micro-operations of the sequencer first (spec/30_encoding.md R76), then the seven operations of
the host (R79). Every operand has exactly the range its field has, so that every term is an
operation the spec lists. -/

namespace Sys2Proof

/-- The operations of `GF256MUL`. -/
inductive Instr where
  /-- `WAIT` (R145) -/
  | wait
  /-- `CHK` (R143) -/
  | chk
  /-- `PACKA` (R91) -/
  | packa
  /-- `PACKB` (R92) -/
  | packb
  /-- `CINIT` (R101) -/
  | cinit
  /-- `FOLD k, j`: bit position `k` of operand word `j` (R102) -/
  | fold (k : Fin 64) (j : Fin 4)
  /-- `SHL1` at bit position `k`, which only steers the successor (R103) -/
  | shl1 (k : Fin 64)
  /-- `RFOLD i` with `i = 4 + ss`; the operand is the field `ss` (R75, R121) -/
  | rfold (ss : Fin 4)
  /-- `UNPACK` (R94) -/
  | unpack
  /-- `FIN` (R146) -/
  | fin
  /-- `RESET` (R149, R180) -/
  | reset
  /-- `START` (R142) -/
  | start
  /-- `OPWR A, v` (R141) -/
  | opwrA (v : Byte)
  /-- `OPWR B, v` (R141) -/
  | opwrB (v : Byte)
  /-- `HNOP`: a host command with no strobe (R79) -/
  | hnop
  /-- `RESRD n` (R147) -/
  | resrd (n : Fin 32)
  /-- `STATRD` (R148) -/
  | statrd
  deriving DecidableEq, Repr

/-- An encoded operation in its format. The four formats are four encoding spaces: the same twelve
bits mean one thing in the sequencer's register and another at the host's command port
(R74, R79). -/
inductive Code where
  /-- Format `SEQ`: the sequencer word (R74) -/
  | seq (w : BitVec 12)
  /-- Format `HCMD`: the host's command strobes (R79) -/
  | hcmd (w : BitVec 12)
  /-- Format `HRD`: the result byte's index `res_idx` (R79) -/
  | hrd (n : BitVec 5)
  /-- Format `HSTAT`: no select bits (R79) -/
  | hstat
  deriving DecidableEq, Repr

/-- Why a code is no operation (R80). -/
inductive Reject where
  /-- A `SEQ` value that no row of R76 matches (R80 (a)) -/
  | illegalSeq (w : BitVec 12)
  /-- `start = 1` and `op_wr = 1` with `rst = 0` (R80 (b)) -/
  | startAndOpwr
  deriving DecidableEq, Repr

end Sys2Proof
end

