-- ==== Sys2Proof/Machine/State.lean ====
section
/-! DEFINITION. The state of one instance: everything spec/10_state.md R20 lists, then four fields
of the model's own that stand for the host (spec/00_scope.md R5) and for what the spec leaves open.
State is plain data. -/

namespace Sys2Proof.Machine

/-- The exceptions: there is one (R160, R161). -/
inductive Exception where
  /-- `InvalidInputLength`, raised by `CHK` alone -/
  | invalidInputLength
  deriving DecidableEq, Repr

/-- Which of the two operands (`op_sel`, R78). -/
inductive Operand where
  /-- `op_sel = 0` -/
  | a
  /-- `op_sel = 1` -/
  | b
  deriving DecidableEq, Repr

/-- The three byte-addressable spaces, 32 bytes each (R50). -/
inductive Space where
  /-- `OPA`, operand A -/
  | opa
  /-- `OPB`, operand B -/
  | opb
  /-- `RES`, the result -/
  | res
  deriving DecidableEq, Repr

/-- One turn of the global interleaving of an instance (R58 (b)): who acts and, for the host, with
which code. -/
inductive Turn where
  /-- the sequencer performs the micro-operation that `SEQ` selects -/
  | sequencer
  /-- the host drives the command strobes (format `HCMD`) -/
  | hcmd (w : BitVec 12)
  /-- the host reads a result byte (format `HRD`) -/
  | hrd (n : BitVec 5)
  /-- the host reads the status (format `HSTAT`) -/
  | hstat
  deriving DecidableEq, Repr

/-- What a read operation of the host returned. -/
inductive Reply where
  /-- `RESRD` returned `res_byte` (R147) -/
  | byte (v : Byte)
  /-- `STATRD` returned `(BUSY, DONE, ERR, RES_VALID)` (R148) -/
  | status (busy done err resValid : Bool)
  deriving DecidableEq, Repr

/-- Why the machine stops with a fault. -/
inductive Fault where
  /-- `SEQ` holds a value outside the table of R76 and the sequencer is to act on it. Raised by the
  step (R80 (a), U6). No run from reset gets there. Safe: the model stops where the spec gives no
  meaning. -/
  | illegalSeq (w : BitVec 12)
  deriving DecidableEq, Repr

/-- Why the machine refuses an action. Each but the first is one of the spec's own. -/
inductive Refusal where
  /-- An operation without a meaning. Raised by no arm of this model. Safe. -/
  | notModelled (mnemonic : String)
  /-- `START_AND_OPWR`: both strobes in one step without `rst`. Raised by the step when the command
  is decoded (R80 (b), R184). Safe: the spec gives it no meaning. -/
  | startAndOpwr
  /-- `OPWR_WHILE_BUSY`. Raised by `OPWR A` and `OPWR B` (R141, R184). Safe. -/
  | opwrWhileBusy
  /-- `START_WHILE_BUSY`. Raised by `START` (R142, R184). Safe. -/
  | startWhileBusy
  /-- `RESULT_NOT_VALID`. Raised by `RESRD` while `RES_VALID = 0` (R147, R184). Safe. -/
  | resultNotValid
  /-- A turn other than `RESET` before the first `RESET`. Raised by the step (R181, U7). No run from
  reset gets there. Safe. -/
  | beforeReset
  deriving DecidableEq, Repr

/-- One instance of `GF256MUL`. -/
structure State where
  /-- `OPA[0..31]`, operand byte buffer A (R26) -/
  opa : Buf32
  /-- `OPB[0..31]`, operand byte buffer B (R26) -/
  opb : Buf32
  /-- `LENA`, bytes written to A, saturated at 33 (R27) -/
  lena : BitVec 6
  /-- `LENB`, bytes written to B, saturated at 33 (R27) -/
  lenb : BitVec 6
  /-- `A[0..3]`, operand A as words (R21) -/
  a : W4
  /-- `B[0..3]`, operand B as words (R22) -/
  b : W4
  /-- `SB[0..4]`, the shift buffer (R23) -/
  sb : W5
  /-- `C[0..7]`, accumulator, product and reducer's working words (R24) -/
  c : W8
  /-- `RES[0..31]`, the result byte buffer (R28) -/
  res : Buf32
  /-- `BUSY`: a call is in progress (R30) -/
  busy : Bool
  /-- `DONE`: the last call has ended (R30) -/
  done : Bool
  /-- `ERR`: the last call ended with `InvalidInputLength` (R30) -/
  err : Bool
  /-- `SEQ = (PH, K, S)`, the sequencer word (R29, R74) -/
  seq : BitVec 12
  /-- MODEL'S OWN: the turns still to come, the host's inputs among them; once the list is empty
  every turn is the sequencer's (R5, R58 (b), R183). Log entry 3. -/
  turns : List Turn
  /-- MODEL'S OWN: what the host's last read returned (R147, R148). Log entry 5. -/
  reply : Option Reply
  /-- MODEL'S OWN: the number of the next free value to draw. Log entry 2. -/
  draws : Nat
  /-- MODEL'S OWN: a `RESET` has been applied since power-on (R181, U7). Log entry 6. -/
  wasReset : Bool
  deriving DecidableEq, Repr

/-- The machine right after reset (R37, R31, R180). The data registers, which the spec leaves
unspecified, hold 0 here (DESIGN CHOICE, log entry 1); the draw counter starts at 0 (DESIGN CHOICE,
log entry 2). -/
def State.reset : State where
  opa := Vector.replicate 32 0
  opb := Vector.replicate 32 0
  lena := 0
  lenb := 0
  a := Vector.replicate 4 0
  b := Vector.replicate 4 0
  sb := Vector.replicate 5 0
  c := Vector.replicate 8 0
  res := Vector.replicate 32 0
  busy := false
  done := false
  err := false
  seq := 0
  turns := []
  reply := none
  draws := 0
  wasReset := true

end Sys2Proof.Machine
end

