-- ==== Sys2Proof/Machine/Operands.lean ====
section
/-! DEFINITION. The word arithmetic of the two functional units and of packing: pure functions
of register contents, with no state and no decision on a data bit (spec/00_scope.md R9,
spec/41_comb_multiplier.md R104, spec/70_reset_and_hazards.md R186). -/

namespace Sys2Proof.Machine

/-! ## Packing and unpacking (R53, R90, R93) -/

/-- Byte `8w + b` of a buffer in byte lane `b` of a word. -/
def packLane (x : Buf32) (w : Fin 4) (b : Fin 8) : Word :=
  (x[8 * w.val + b.val]'(by omega)).setWidth 64 <<< (8 * b.val)

/-- Word `w` of a packed buffer: the eight lanes together (R91's pseudocode). -/
def packWord (x : Buf32) (w : Fin 4) : Word :=
  packLane x w 0 ^^^ packLane x w 1 ^^^ packLane x w 2 ^^^ packLane x w 3 ^^^
    packLane x w 4 ^^^ packLane x w 5 ^^^ packLane x w 6 ^^^ packLane x w 7

/-- `pack : BUF32 -> W4` (R90). -/
def pack (x : Buf32) : W4 := Vector.ofFn fun w => packWord x w

/-- Byte `n` of an unpacked element: `(v[n div 8] >> (8 * (n mod 8))) & 0xFF` (R93). -/
def unpackByte (v : W4) (n : Fin 32) : Byte :=
  ((v[n.val / 8]'(by omega) >>> (8 * (n.val % 8))) &&& 0xFF).setWidth 8

/-- `unpack : W4 -> BUF32` (R93). -/
def unpack (v : W4) : Buf32 := Vector.ofFn fun n => unpackByte v n

/-- `C[0..3]` (R24). -/
def lowWords (p : W8) : W4 := Vector.ofFn fun i => p[i.val]

/-! ## The comb multiplier (R101 to R104) -/

/-- `neg64(x) = (2^64 - x) mod 2^64` (R9). -/
def neg64 (x : Word) : Word := 0 - x

/-- The bit `(x >> k) & 1` of a word, as a 64-bit 0 or 1 (R102). -/
def extractBit (x : Word) (k : Fin 64) : Word := (x >>> k.val) &&& 1

/-- The mask of one `FOLD`: all ones or all zeros, by arithmetic (R102, D12). -/
def foldMask (x : Word) (k : Fin 64) : Word := neg64 (extractBit x k)

/-- The masked shift-buffer word that `FOLD k, j` XORs into accumulator word `n`: `SB[n - j] & m`
for `n` in `j .. j+4`. Words outside that window take nothing; the window depends on `j` alone. -/
def foldTerm (sb : W5) (m : Word) (j : Fin 4) (n : Fin 8) : Word :=
  if h : j.val ≤ n.val ∧ n.val ≤ j.val + 4 then sb[n.val - j.val]'(by omega) &&& m else 0

/-- The accumulator after `FOLD k, j` (R102). -/
def foldWords (p : W8) (sb : W5) (m : Word) (j : Fin 4) : W8 :=
  Vector.ofFn fun n => p[n] ^^^ foldTerm sb m j n

/-- The accumulator after `CINIT`: all eight words 0 (R101). -/
def zeroWords : W8 := Vector.replicate 8 0

/-- The shift buffer after `CINIT`: `B` with word 4 zero (R101). -/
def initShift (b : W4) : W5 := Vector.ofFn fun i => if h : i.val < 4 then b[i.val] else 0

/-- Word `i` of the shift buffer moved left by one: the top bit of the word below enters at bit 0
(R103). -/
def shl1Word (old : W5) (i : Fin 5) : Word :=
  (old[i] <<< 1) ^^^ (if h : 0 < i.val then old[i.val - 1]'(by omega) >>> 63 else 0)

/-- The shift buffer after `SHL1` (R103). -/
def shl1Words (old : W5) : W5 := Vector.ofFn fun i => shl1Word old i

/-! ## The modular reducer (R121) -/

/-- The four low-word terms of a fold, shifts 0, 2, 5, 10. -/
def lowTerms (t : Word) : Word := t ^^^ (t <<< 2) ^^^ (t <<< 5) ^^^ (t <<< 10)

/-- The three high-word terms of a fold, shifts 62, 59, 54. -/
def highTerms (t : Word) : Word := (t >>> 62) ^^^ (t >>> 59) ^^^ (t >>> 54)

/-- The word that `RFOLD i`, `i = 4 + ss`, XORs into word `n`: the low terms at `i - 4`, the high
terms at `i - 3`, nothing elsewhere. -/
def rfoldTerm (t : Word) (ss : Fin 4) (n : Fin 8) : Word :=
  if n.val = ss.val then lowTerms t else if n.val = ss.val + 1 then highTerms t else 0

/-- `C` after `RFOLD i`, `i = 4 + ss`; `C[i]` keeps its value (R121, R122, C3). -/
def rfoldWords (p : W8) (ss : Fin 4) : W8 :=
  Vector.ofFn fun n => p[n] ^^^ rfoldTerm p[ss.val + 4] ss n

end Sys2Proof.Machine
end

