-- ==== Sys2Proof/WellFormed.lean ====
section
/-! DEFINITION. Which codes are well formed, written from the list of illegal encodings of
spec/30_encoding.md R80 and not from the table of legal ones (R76): that the two lists agree is a
claim about the decoder. A term of `Instr` is well formed by its operands' types. -/

namespace Sys2Proof

/-- R80 (a), `PH` in 5..7. -/
def phaseUnused (w : BitVec 12) : Bool := 5 ≤ w.toNat / 512

/-- R80 (a), `PH = 0` with `K != 0` or `S != 0`. -/
def idleBad (w : BitVec 12) : Bool :=
  w.toNat / 512 == 0 && (w.toNat / 8 % 64 != 0 || w.toNat % 8 != 0)

/-- R80 (a), `PH = 1` with `K != 0` or `S >= 4`. -/
def loadBad (w : BitVec 12) : Bool :=
  w.toNat / 512 == 1 && (w.toNat / 8 % 64 != 0 || 4 ≤ w.toNat % 8)

/-- R80 (a), `PH = 2` with `S >= 5`. -/
def combBad (w : BitVec 12) : Bool := w.toNat / 512 == 2 && 5 ≤ w.toNat % 8

/-- R80 (a), `PH = 3` with `K != 0` or `S >= 4`. -/
def redBad (w : BitVec 12) : Bool :=
  w.toNat / 512 == 3 && (w.toNat / 8 % 64 != 0 || 4 ≤ w.toNat % 8)

/-- R80 (a), `PH = 4` with `K != 0` or `S >= 2`. -/
def storeBad (w : BitVec 12) : Bool :=
  w.toNat / 512 == 4 && (w.toNat / 8 % 64 != 0 || 2 ≤ w.toNat % 8)

/-- A legal value of `SEQ`: none of the six illegal kinds of R80 (a). -/
def seqLegal (w : BitVec 12) : Bool :=
  !(phaseUnused w || idleBad w || loadBad w || combBad w || redBad w || storeBad w)

/-- A legal host command: not `start` with `op_wr` unless `rst` overrides (R80 (b), R149). -/
def hcmdLegal (w : BitVec 12) : Bool :=
  w.getLsbD 11 || !(w.getLsbD 10 && w.getLsbD 9)

/-- A well-formed code: legal in its format. Every `res_idx` and every status read is. -/
def Code.wellFormed : Code → Bool
  | .seq w => seqLegal w
  | .hcmd w => hcmdLegal w
  | .hrd _ => true
  | .hstat => true

end Sys2Proof
end

