-- ==== Sys2Proof/Decode.lean ====
section
/-! DEFINITION. From codes to operations and back. The rows are those of
spec/30_encoding.md R76 (format `SEQ`) and R79 (format `HCMD`), with their match and mask. -/

namespace Sys2Proof

/-! ## The fields of a sequencer word (R74) -/

/-- `SEQ[11:9]`, the phase. -/
def seqPhase (w : BitVec 12) : BitVec 3 := w.extractLsb' 9 3

/-- `SEQ[8:3]`, the comb bit position. -/
def seqK (w : BitVec 12) : BitVec 6 := w.extractLsb' 3 6

/-- `SEQ[2:0]`, the step within the phase. -/
def seqS (w : BitVec 12) : BitVec 3 := w.extractLsb' 0 3

/-- Phase codes (R29). -/
def phIdle : BitVec 3 := 0
/-- Phase `LOAD` (R29). -/
def phLoad : BitVec 3 := 1
/-- Phase `COMB` (R29). -/
def phComb : BitVec 3 := 2
/-- Phase `RED` (R29). -/
def phRed : BitVec 3 := 3
/-- Phase `STORE` (R29). -/
def phStore : BitVec 3 := 4

/-- `(PH, K, S)` as a sequencer word: `PH` in the high bits (R74). -/
def mkSeq (ph : BitVec 3) (k : BitVec 6) (st : BitVec 3) : BitVec 12 := ph ++ k ++ st

/-! ## The fields of a host command (R79) -/

/-- The strobes of one step as an `HCMD` word: `rst`, `start`, `op_wr`, `op_sel`, `op_byte` from
the top bit down. -/
def mkHcmd (rst start opWr opSel : Bool) (v : Byte) : BitVec 12 :=
  BitVec.ofBool rst ++ BitVec.ofBool start ++ BitVec.ofBool opWr ++ BitVec.ofBool opSel ++ v

/-- `HCMD[7:0]`, `op_byte`. -/
def hcmdByte (w : BitVec 12) : Byte := w.extractLsb' 0 8

/-! ## The tables -/

/-- One row of a table: `w` is this row's when `w & mask = pat`. -/
structure Row where
  mnemonic : String
  pat : BitVec 12
  mask : BitVec 12
  make : BitVec 12 → Instr

/-- Whether a row matches a word. -/
def rowMatches (r : Row) (w : BitVec 12) : Bool := w &&& r.mask == r.pat

/-- R76: every legal value of `SEQ`. The operands are assembled as R75 says. -/
def seqRows : List Row :=
  [⟨"WAIT", 0x000, 0xFFF, fun _ => .wait⟩,
   ⟨"CHK", 0x200, 0xFFF, fun _ => .chk⟩,
   ⟨"PACKA", 0x201, 0xFFF, fun _ => .packa⟩,
   ⟨"PACKB", 0x202, 0xFFF, fun _ => .packb⟩,
   ⟨"CINIT", 0x203, 0xFFF, fun _ => .cinit⟩,
   ⟨"FOLD", 0x400, 0xE04, fun w => .fold (w.extractLsb' 3 6).toFin (w.extractLsb' 0 2).toFin⟩,
   ⟨"SHL1", 0x404, 0xE07, fun w => .shl1 (w.extractLsb' 3 6).toFin⟩,
   ⟨"RFOLD", 0x600, 0xFFC, fun w => .rfold (w.extractLsb' 0 2).toFin⟩,
   ⟨"UNPACK", 0x800, 0xFFF, fun _ => .unpack⟩,
   ⟨"FIN", 0x801, 0xFFF, fun _ => .fin⟩]

/-- R79: the host commands; the bits outside a row's mask and operand are ignored. -/
def hcmdRows : List Row :=
  [⟨"RESET", 0x800, 0x800, fun _ => .reset⟩,
   ⟨"START", 0x400, 0xE00, fun _ => .start⟩,
   ⟨"OPWR_A", 0x200, 0xF00, fun w => .opwrA (hcmdByte w)⟩,
   ⟨"OPWR_B", 0x300, 0xF00, fun w => .opwrB (hcmdByte w)⟩,
   ⟨"HNOP", 0x000, 0xE00, fun _ => .hnop⟩]

/-- The instruction of the first row that matches. -/
def lookup (rows : List Row) (w : BitVec 12) : Option Instr :=
  (rows.find? fun r => rowMatches r w).map fun r => r.make w

/-- What a sequencer word selects; a value outside R76 is rejected (R80 (a)). -/
def decodeSeq (w : BitVec 12) : Except Reject Instr :=
  match lookup seqRows w with
  | some i => .ok i
  | none => .error (.illegalSeq w)

/-- What a host command asks for; `start` with `op_wr` is rejected (R80 (b)). -/
def decodeHcmd (w : BitVec 12) : Except Reject Instr :=
  match lookup hcmdRows w with
  | some i => .ok i
  | none => .error .startAndOpwr

/-- The operation a code stands for, or the reason it stands for none. -/
def decode : Code → Except Reject Instr
  | .seq w => decodeSeq w
  | .hcmd w => decodeHcmd w
  | .hrd n => .ok (.resrd n.toFin)
  | .hstat => .ok .statrd

/-- The code of an operation (R76, R79). The bits a host command ignores are written 0. -/
def encode : Instr → Code
  | .wait => .seq (mkSeq phIdle 0 0)
  | .chk => .seq (mkSeq phLoad 0 0)
  | .packa => .seq (mkSeq phLoad 0 1)
  | .packb => .seq (mkSeq phLoad 0 2)
  | .cinit => .seq (mkSeq phLoad 0 3)
  | .fold k j => .seq (mkSeq phComb (BitVec.ofNat 6 k.val) (BitVec.ofNat 3 j.val))
  | .shl1 k => .seq (mkSeq phComb (BitVec.ofNat 6 k.val) 4)
  | .rfold ss => .seq (mkSeq phRed 0 (BitVec.ofNat 3 ss.val))
  | .unpack => .seq (mkSeq phStore 0 0)
  | .fin => .seq (mkSeq phStore 0 1)
  | .reset => .hcmd (mkHcmd true false false false 0)
  | .start => .hcmd (mkHcmd false true false false 0)
  | .opwrA v => .hcmd (mkHcmd false false true false v)
  | .opwrB v => .hcmd (mkHcmd false false true true v)
  | .hnop => .hcmd (mkHcmd false false false false 0)
  | .resrd n => .hrd (BitVec.ofNat 5 n.val)
  | .statrd => .hstat

/-! ## The opcode table's numbers -/

/-- The code that a number of the opcode table stands for: no bits is `HSTAT`, up to eight bits is
`HRD`, more is one of the two 12-bit formats. The table's number does not say which of the two: a
number that is a legal sequencer word is read as one, any other as a host command (log entry 4). -/
def tableCode (nbits w : Nat) : Code :=
  if nbits = 0 then .hstat
  else if nbits ≤ 8 then .hrd (BitVec.ofNat 5 w)
  else if (lookup seqRows (BitVec.ofNat 12 w)).isSome then .seq (BitVec.ofNat 12 w)
  else .hcmd (BitVec.ofNat 12 w)

/-- Whether the number fits the format that its size selects. -/
def tableFits (nbits w : Nat) : Bool :=
  if nbits = 0 then w == 0 else if nbits ≤ 8 then w < 32 else w < 4096

/-- The operation the decoder reads from a number of the opcode table. -/
def decodeTableWord (nbits w : Nat) : Option Instr :=
  if tableFits nbits w then (decode (tableCode nbits w)).toOption else none

end Sys2Proof
end

