-- ==== Sys2Proof/Machine/Flags.lean ====
section
/-! DEFINITION. The status flags and what is computed from them (spec/10_state.md R30, R31,
spec/30_encoding.md R78). No arithmetic micro-operation writes a flag. -/

namespace Sys2Proof.Machine

/-- `RES_VALID = DONE & ~ERR`: not state (R30). -/
def State.resValid (s : State) : Bool := s.done && !s.err

/-- The number of an exception in `ERRCODE` (R161). -/
def exceptionCode : Exception → BitVec 1
  | .invalidInputLength => 1

/-- `ERRCODE`, the hardwired copy of `ERR`: 0 = none, 1 = `InvalidInputLength` (R31). -/
def State.errCode (s : State) : BitVec 1 :=
  if s.err then exceptionCode .invalidInputLength else 0

/-- The value `STATRD` returns: `(BUSY, DONE, ERR, RES_VALID)` (R148). -/
def State.status (s : State) : Reply := .status s.busy s.done s.err s.resValid

/-- The output port `res_byte` at an index: `RES[res_idx]` while `res_valid = 1`, no meaning
otherwise (R78, U3). -/
def State.resByte (s : State) (n : Fin 32) : Option Byte :=
  if s.resValid then some s.res[n] else none

/-- The flags of a call in progress, as `START` leaves them (R142). -/
def State.flagsBusy (s : State) : State := { s with busy := true, done := false, err := false }

/-- The flags of a call that has ended with a result: `FIN` leaves `ERR` as it is (R146). -/
def State.flagsDone (s : State) : State := { s with busy := false, done := true }

/-- The flags of a call that has ended with the exception (R163). -/
def State.flagsError (s : State) : State := { s with busy := false, done := true, err := true }

/-- The flags after `RESET` (R180). -/
def State.flagsClear (s : State) : State := { s with busy := false, done := false, err := false }

end Sys2Proof.Machine
end

