-- ==== Sys2Proof/Machine/Ops.lean ====
section
/-! DEFINITION. The operations that the meanings share: the byte buffers, the sequencer word and
its successors, the operand counters, the one exception, the free values of `RESET`, and how a turn
is taken. -/

namespace Sys2Proof.Machine

/-! ## The byte buffers (spec/00_scope.md R10, spec/20_memory.md R50) -/

/-- The contents of a byte space. -/
def State.buffer (s : State) : Space → Buf32
  | .opa => s.opa
  | .opb => s.opb
  | .res => s.res

/-- Replace the contents of a byte space. -/
def State.setBuffer (s : State) : Space → Buf32 → State
  | .opa, x => { s with opa := x }
  | .opb, x => { s with opb := x }
  | .res, x => { s with res := x }

/-- `MemRead(buf, n, 1)` (R10). -/
def memRead (s : State) (sp : Space) (n : Fin 32) : Byte := (s.buffer sp)[n]

/-- `MemWrite(buf, n, 1, v)` (R10). -/
def memWrite (s : State) (sp : Space) (n : Fin 32) (v : Byte) : State :=
  s.setBuffer sp ((s.buffer sp).set n.val v n.isLt)

/-! ## The word registers -/

/-- Write `A` (R21). -/
def State.setA (s : State) (x : W4) : State := { s with a := x }
/-- Write `B` (R22). -/
def State.setB (s : State) (x : W4) : State := { s with b := x }
/-- Write `SB` (R23). -/
def State.setSb (s : State) (x : W5) : State := { s with sb := x }
/-- Write `C` (R24). -/
def State.setC (s : State) (x : W8) : State := { s with c := x }

/-! ## The sequencer word and its successors (spec/10_state.md R32)

The successors take operands of the micro-operation only, never a data register (R186). -/

/-- `SEQ <- w`. -/
def State.setSeq (s : State) (w : BitVec 12) : State := { s with seq := w }

/-- `(IDLE, 0, 0)` -/
def seqIdle : BitVec 12 := mkSeq phIdle 0 0
/-- `(LOAD, 0, 0)`, which `START` writes -/
def seqChk : BitVec 12 := mkSeq phLoad 0 0
/-- after a passing `CHK` -/
def seqPackA : BitVec 12 := mkSeq phLoad 0 1
/-- after `PACKA` -/
def seqPackB : BitVec 12 := mkSeq phLoad 0 2
/-- after `PACKB` -/
def seqCinit : BitVec 12 := mkSeq phLoad 0 3
/-- after `CINIT` -/
def seqComb : BitVec 12 := mkSeq phComb 0 0
/-- after `FOLD k, j`: step `j + 1`, where step 4 is the shift -/
def seqAfterFold (k : Fin 64) (j : Fin 4) : BitVec 12 :=
  mkSeq phComb (BitVec.ofNat 6 k.val) (BitVec.ofNat 3 (j.val + 1))
/-- after `SHL1`: the next bit position, or the reducer after the last -/
def seqAfterShl1 (k : Fin 64) : BitVec 12 :=
  if k.val ≤ 62 then mkSeq phComb (BitVec.ofNat 6 (k.val + 1)) 0 else mkSeq phRed 0 3
/-- after `RFOLD`: one word further down, or `UNPACK` after `RFOLD 4` -/
def seqAfterRfold (ss : Fin 4) : BitVec 12 :=
  if 1 ≤ ss.val then mkSeq phRed 0 (BitVec.ofNat 3 (ss.val - 1)) else mkSeq phStore 0 0
/-- after `UNPACK` -/
def seqFin : BitVec 12 := mkSeq phStore 0 1

/-! ## The operand counters (spec/10_state.md R27) -/

/-- `LENA` or `LENB`. -/
def State.len (s : State) : Operand → BitVec 6
  | .a => s.lena
  | .b => s.lenb

/-- Write `LENA` or `LENB`. -/
def State.setLen (s : State) : Operand → BitVec 6 → State
  | .a, n => { s with lena := n }
  | .b, n => { s with lenb := n }

/-- Both counters to 0: the operands are consumed (R144). -/
def State.clearLens (s : State) : State := { s with lena := 0, lenb := 0 }

/-- The buffer of an operand. -/
def operandSpace : Operand → Space
  | .a => .opa
  | .b => .opb

/-- The operand's byte store: the byte goes to the index its counter gives, and nowhere once the
buffer is full (R141). -/
def storeOperand (s : State) (o : Operand) (v : Byte) : State :=
  if h : (s.len o).toNat < 32 then memWrite s (operandSpace o) ⟨(s.len o).toNat, h⟩ v else s

/-- The counter's step: up by one, staying at 33 (R141). -/
def bumpLen (n : BitVec 6) : BitVec 6 := if n.toNat ≤ 32 then n + 1 else n

/-- One byte appended to an operand: the store, then the counter (R141). -/
def appendByte (s : State) (o : Operand) (v : Byte) : State :=
  (storeOperand s o v).setLen o (bumpLen (s.len o))

/-- The length check's condition: both counters are 32 (R143). -/
def lengthsOk (s : State) : Bool := s.lena == 32 && s.lenb == 32

/-! ## The exception (spec/60_exceptions.md R163, R164) -/

/-- `raise`: the flags report the error, the operands are consumed and the sequencer is idle.
Nothing is saved and control goes nowhere. There is no return operation (R164): the error state
ends with the host's next `START` or `RESET`. -/
def raise (e : Exception) (s : State) : State :=
  match e with
  | .invalidInputLength => (s.flagsError.clearLens).setSeq seqIdle

/-! ## Reset (spec/70_reset_and_hazards.md R180) -/

/-- The control state at its reset values. -/
def resetControl (s : State) : State := (s.flagsClear.clearLens).setSeq seqIdle

/-- 32 bytes drawn from number `n` on. -/
def drawBytes (n : Nat) : Buf32 := Vector.ofFn fun i => Config.freeByte (n + i.val)

/-- The data registers become unspecified: each byte and each word is a free value of its own, and
the counter of draws moves past the 96 bytes and 21 words drawn. -/
def scrambleData (s : State) : State :=
  { s with
    opa := drawBytes s.draws
    opb := drawBytes (s.draws + 32)
    res := drawBytes (s.draws + 64)
    a := Vector.ofFn fun i => Config.freeWord (s.draws + 96 + i.val)
    b := Vector.ofFn fun i => Config.freeWord (s.draws + 100 + i.val)
    sb := Vector.ofFn fun i => Config.freeWord (s.draws + 104 + i.val)
    c := Vector.ofFn fun i => Config.freeWord (s.draws + 109 + i.val)
    draws := s.draws + 117 }

/-- A `RESET` has been applied (R181). -/
def State.markReset (s : State) : State := { s with wasReset := true }

/-! ## The host's reads -/

/-- The host receives a value. -/
def State.setReply (s : State) (r : Reply) : State := { s with reply := some r }

/-! ## Taking a turn (spec/20_memory.md R58) -/

/-- The code acted on in this turn: the host's, if the turn is the host's, else the sequencer
word. With no turn listed it is the sequencer's (R183: the sequencer is always scheduled again). -/
def issued (s : State) : Code :=
  match s.turns with
  | [] => .seq s.seq
  | .sequencer :: _ => .seq s.seq
  | .hcmd w :: _ => .hcmd w
  | .hrd n :: _ => .hrd n
  | .hstat :: _ => .hstat

/-- The turn is taken off the list. -/
def advance (s : State) : State := { s with turns := s.turns.tail }

/-- Whether a code is a `RESET` command, whatever its other strobes (R149). -/
def isReset : Code → Bool
  | .hcmd w => w.getLsbD 11
  | _ => false

/-- Before the first `RESET` no rule applies to any turn but a `RESET` (R181, U7). -/
def mayTake (s : State) : Bool := s.wasReset || isReset (issued s)

/-- How the machine stops on a code that is no operation: a fault for an illegal sequencer word,
a refusal for a command that breaks the host's protocol (R80). -/
def stopOn : Reject → Host.Outcome State Fault Refusal
  | .illegalSeq w => .fault (.illegalSeq w)
  | .startAndOpwr => .refused .startAndOpwr

/-- The turn list with a code in front, and `SEQ` holding it if it is a sequencer word: the machine
about to act on that code. -/
def State.withCode (s : State) : Code → State
  | .seq w => { s with seq := w, turns := .sequencer :: s.turns }
  | .hcmd w => { s with turns := .hcmd w :: s.turns }
  | .hrd n => { s with turns := .hrd n :: s.turns }
  | .hstat => { s with turns := .hstat :: s.turns }

end Sys2Proof.Machine
end

