-- ==== Sys2Proof/Machine/Boundary.lean ====
section
/-! DEFINITION. The packing micro-operations `PACKA`, `PACKB`, `UNPACK` (spec/40_packing.md). -/

namespace Sys2Proof.Machine

/-- `PACKA`: `A <- pack(OPA)` (R91). -/
def execPacka (s : State) : Host.Outcome State Fault Refusal :=
  .next ((s.setA (pack (s.buffer .opa))).setSeq seqPackB)

/-- `PACKB`: `B <- pack(OPB)` (R92). -/
def execPackb (s : State) : Host.Outcome State Fault Refusal :=
  .next ((s.setB (pack (s.buffer .opb))).setSeq seqCinit)

/-- `UNPACK`: `RES <- unpack(C[0..3])`, all 32 bytes in the one step (R94). -/
def execUnpack (s : State) : Host.Outcome State Fault Refusal :=
  .next ((s.setBuffer .res (unpack (lowWords s.c))).setSeq seqFin)

end Sys2Proof.Machine
end

