-- ==== Sys2Proof/Machine/Comb.lean ====
section
/-! DEFINITION. The unit `gf256_comb_multiplier`: `CINIT`, `FOLD`, `SHL1`
(spec/41_comb_multiplier.md). -/

namespace Sys2Proof.Machine

/-- `CINIT`: `C` is cleared and `SB` takes `B` (R101). -/
def execCinit (s : State) : Host.Outcome State Fault Refusal :=
  .next (((s.setC zeroWords).setSb (initShift s.b)).setSeq seqComb)

/-- `FOLD k, j`: the masked shift buffer is XORed into `C[j..j+4]`; the same step whatever the bit
(R102, R109). -/
def execFold (k : Fin 64) (j : Fin 4) (s : State) : Host.Outcome State Fault Refusal :=
  .next ((s.setC (foldWords s.c s.sb (foldMask s.a[j] k) j)).setSeq (seqAfterFold k j))

/-- `SHL1`: the shift buffer moves left by one bit (R103). -/
def execShl1 (k : Fin 64) (s : State) : Host.Outcome State Fault Refusal :=
  .next ((s.setSb (shl1Words s.sb)).setSeq (seqAfterShl1 k))

end Sys2Proof.Machine
end

