-- ==== Sys2Proof/Machine/HostOps.lean ====
section
/-! DEFINITION. The host's operations (spec/43_top_level_multiply.md section 2,
spec/70_reset_and_hazards.md R180, R184). A refusal here is one of the spec's own guards. -/

namespace Sys2Proof.Machine

/-- `RESET`: the control state at its reset values, the data registers unspecified; legal in every
state (R149, R180). -/
def execReset (s : State) : Host.Outcome State Fault Refusal :=
  .next (scrambleData (resetControl s)).markReset

/-- `START` begins a call (R142). -/
def execStart (s : State) : Host.Outcome State Fault Refusal :=
  if s.busy then .refused .startWhileBusy else .next (s.flagsBusy.setSeq seqChk)

/-- `OPWR A, v` appends a byte to operand A (R141). -/
def execOpwrA (v : Byte) (s : State) : Host.Outcome State Fault Refusal :=
  if s.busy then .refused .opwrWhileBusy else .next (appendByte s .a v)

/-- `OPWR B, v` appends a byte to operand B (R141). -/
def execOpwrB (v : Byte) (s : State) : Host.Outcome State Fault Refusal :=
  if s.busy then .refused .opwrWhileBusy else .next (appendByte s .b v)

/-- `HNOP` asserts no strobe: no state change (R79). -/
def execHnop (s : State) : Host.Outcome State Fault Refusal := .next s

/-- `RESRD n` returns `RES[n]` while `RES_VALID = 1`; no register of the hardware changes (R147). -/
def execResrd (n : Fin 32) (s : State) : Host.Outcome State Fault Refusal :=
  if s.resValid then .next (s.setReply (.byte (memRead s .res n))) else .refused .resultNotValid

/-- `STATRD` returns the flags; legal in every state, no register of the hardware changes
(R148). -/
def execStatrd (s : State) : Host.Outcome State Fault Refusal := .next (s.setReply s.status)

end Sys2Proof.Machine
end

