-- ==== Sys2Proof/Machine/Reducer.lean ====
section
/-! DEFINITION. The unit `gf256_modular_reducer`: `RFOLD` (spec/42_modular_reducer.md). -/

namespace Sys2Proof.Machine

/-- `RFOLD i`, `i = 4 + ss`: word `C[i]` is folded into `C[i-4]` and `C[i-3]` (R121). -/
def execRfold (ss : Fin 4) (s : State) : Host.Outcome State Fault Refusal :=
  .next ((s.setC (rfoldWords s.c ss)).setSeq (seqAfterRfold ss))

end Sys2Proof.Machine
end

