-- ==== Sys2Proof/Machine/Sequencer.lean ====
section
/-! DEFINITION. The sequencer's bookkeeping micro-operations `WAIT`, `CHK`, `FIN`
(spec/43_top_level_multiply.md section 3). -/

namespace Sys2Proof.Machine

/-- `WAIT` changes no state (R145). -/
def execWait (s : State) : Host.Outcome State Fault Refusal := .next s

/-- `CHK` passes when both operands are 32 bytes long, else raises `InvalidInputLength` (R143). -/
def execChk (s : State) : Host.Outcome State Fault Refusal :=
  .next (if lengthsOk s then s.setSeq seqPackA else raise .invalidInputLength s)

/-- `FIN` ends a call that has a result: `DONE`, not `BUSY`, the operands consumed, the sequencer
idle; `ERR` is not written (R146). -/
def execFin (s : State) : Host.Outcome State Fault Refusal :=
  .next ((s.flagsDone.clearLens).setSeq seqIdle)

end Sys2Proof.Machine
end

