-- ==== Sys2Proof/Machine/Dispatch.lean ====
section
/-! DEFINITION. One arm per operation. -/

namespace Sys2Proof.Machine

def exec (i : Instr) (s : State) : Host.Outcome State Fault Refusal :=
  match i with
  | .wait => Sys2Proof.Machine.execWait s
  | .chk => Sys2Proof.Machine.execChk s
  | .packa => Sys2Proof.Machine.execPacka s
  | .packb => Sys2Proof.Machine.execPackb s
  | .cinit => Sys2Proof.Machine.execCinit s
  | .fold k j => Sys2Proof.Machine.execFold k j s
  | .shl1 k => Sys2Proof.Machine.execShl1 k s
  | .rfold ss => Sys2Proof.Machine.execRfold ss s
  | .unpack => Sys2Proof.Machine.execUnpack s
  | .fin => Sys2Proof.Machine.execFin s
  | .reset => Sys2Proof.Machine.execReset s
  | .start => Sys2Proof.Machine.execStart s
  | .opwrA v => Sys2Proof.Machine.execOpwrA v s
  | .opwrB v => Sys2Proof.Machine.execOpwrB v s
  | .hnop => Sys2Proof.Machine.execHnop s
  | .resrd n => Sys2Proof.Machine.execResrd n s
  | .statrd => Sys2Proof.Machine.execStatrd s

end Sys2Proof.Machine
end

