-- ==== Sys2Proof/Machine/Step.lean ====
section
/-! DEFINITION. One step: one turn of the instance's interleaving (spec/00_scope.md R10, R12;
spec/20_memory.md R58). -/

namespace Sys2Proof.Machine

/-- One turn: its code is decoded and performed, or the machine stops on it. Before the first
`RESET` every turn but a `RESET` is refused (R181). -/
def step (s : State) : Host.Outcome State Fault Refusal :=
  if mayTake s then
    match decode (issued s) with
    | .ok i => exec i (advance s)
    | .error r => stopOn r
  else .refused .beforeReset

/-- The state whose next step performs the operation of a number of the opcode table: the code is
the next turn's, and in `SEQ` if it is a sequencer word. -/
def State.withFetchWord (s : State) (nbits w : Nat) : State := s.withCode (tableCode nbits w)

end Sys2Proof.Machine
end

