-- ==== Sys2Proof/Machine/Field.lean ====
section
/-! DEFINITION. The function level of the spec (spec/00_scope.md R12): `clmul256`, `reduce512`
and `multiply` as pure total functions on values, written from their definitions (R107, R126, R150)
and not from the micro-operations. That the machine computes them is a claim. -/

namespace Sys2Proof.Machine

/-! ## Register files as one value, word 0 least significant (R8) -/

/-- The 256-bit value of four words. -/
def val4 (v : W4) : BitVec 256 := v[3] ++ v[2] ++ v[1] ++ v[0]

/-- The 320-bit value of five words, `SBV` (R23). -/
def val5 (v : W5) : BitVec 320 := v[4] ++ v[3] ++ v[2] ++ v[1] ++ v[0]

/-- The 512-bit value of eight words. -/
def val8 (v : W8) : BitVec 512 :=
  v[7] ++ v[6] ++ v[5] ++ v[4] ++ v[3] ++ v[2] ++ v[1] ++ v[0]

/-- A 256-bit value as four words. -/
def split4 (x : BitVec 256) : W4 := Vector.ofFn fun i => x.extractLsb' (64 * i.val) 64

/-- A 512-bit value as eight words. -/
def split8 (x : BitVec 512) : W8 := Vector.ofFn fun i => x.extractLsb' (64 * i.val) 64

/-! ## The carry-less product (R107) -/

/-- XOR over the `n` below a bound with `a[n] = 1` of `b * 2^n`. -/
def clmulBelow (a b : BitVec 256) : Nat → BitVec 512
  | 0 => 0
  | n + 1 => clmulBelow a b n ^^^ (if a.getLsbD n then b.setWidth 512 <<< n else 0)

/-- `clmul256 : W4 x W4 -> W8`, the carry-less product (R107). -/
def clmul256 (x y : W4) : W8 := split8 (clmulBelow (val4 x) (val4 y) 256)

/-! ## The remainder modulo f (R126) -/

/-- The bit pattern of `f = X^256 + X^10 + X^5 + X^2 + 1` (R2). -/
def fBits : BitVec 512 := 1 <<< 256 ^^^ 0x425

/-- Bit-serial polynomial division by `f`, from the top: clear bit `256 + n` of the value by adding
`f * X^n` if it is set, for each `n` below a bound. -/
def remBelow : Nat → BitVec 512 → BitVec 512
  | 0, p => p
  | n + 1, p => remBelow n (if p.getLsbD (256 + n) then p ^^^ (fBits <<< n) else p)

/-- `reduce512 : W8 -> W4`, the remainder modulo `f` (R126). -/
def reduce512 (c : W8) : W4 := split4 ((remBelow 256 (val8 c)).setWidth 256)

/-! ## The product of two field elements (R150) -/

/-- The product of two well-sized operands. -/
def mulBuf (x y : Buf32) : Buf32 := unpack (reduce512 (clmul256 (pack x) (pack y)))

/-- The 32-byte buffer of a byte sequence: its first 32 bytes. -/
def bufferOf (l : List Byte) : Buf32 := Vector.ofFn fun i => l.getD i.val 0

/-- `multiply : bytes x bytes -> BUF32 or InvalidInputLength` (R150). -/
def multiply (x y : List Byte) : Except Exception Buf32 :=
  if x.length = 32 ∧ y.length = 32 then .ok (mulBuf (bufferOf x) (bufferOf y))
  else .error .invalidInputLength

end Sys2Proof.Machine
end

