-- ==== Sys2Proof/Machine/Instances.lean ====
section
/-! DEFINITION. Several instances side by side (spec/60_exceptions.md R171, spec/20_memory.md
R58 (e)): they share no state. Log entry 10. -/

namespace Sys2Proof.Machine

/-- A system of `N_INST` instances. The number is open (R7, D15): it is an argument here. -/
abbrev System (count : Nat) := Vector State count

/-- One turn of instance `n`; the others keep their states. -/
def systemStep {count : Nat} (sys : System count) (n : Fin count) :
    Host.Outcome (System count) Fault Refusal :=
  match step sys[n] with
  | .next t => .next (sys.set n.val t n.isLt)
  | .fault f => .fault f
  | .refused r => .refused r

end Sys2Proof.Machine
end

