-- ==== Sys2Proof/Machine/Pseudo.lean ====
section
/-! DEFINITION. The pseudo-operations and the hardwired program, as sequences of operations
(spec/30_encoding.md R77, R82). The sequencer's are lists of micro-operations, the host's are lists
of turns. -/

namespace Sys2Proof.Machine

/-- One round of the comb loop: four folds and the shift (R100). -/
def combRound (k : Fin 64) : List Instr :=
  [.fold k 0, .fold k 1, .fold k 2, .fold k 3, .shl1 k]

/-- `CMUL`: `CINIT`, then the 64 rounds (R82, R100). -/
def cmul : List Instr := .cinit :: (List.finRange 64).flatMap combRound

/-- `REDC`: `RFOLD 7`, `RFOLD 6`, `RFOLD 5`, `RFOLD 4` (R82, R120). -/
def redc : List Instr := [.rfold 3, .rfold 2, .rfold 1, .rfold 0]

/-- `MULSEQ`: the program of a successful call (R77, R82). -/
def mulseq : List Instr := [.chk, .packa, .packb] ++ cmul ++ redc ++ [.unpack, .fin]

/-- The host's turn that performs a host operation; a micro-operation is the sequencer's turn. -/
def turnOf (i : Instr) : Turn :=
  match encode i with
  | .seq _ => .sequencer
  | .hcmd w => .hcmd w
  | .hrd n => .hrd n
  | .hstat => .hstat

/-- `OPWR` to an operand. -/
def opwrTurn (o : Operand) (v : Byte) : Turn :=
  match o with
  | .a => turnOf (.opwrA v)
  | .b => turnOf (.opwrB v)

/-- `LOAD A, b0 b1 ...` and `LOAD B, ...` (R82). -/
def loadTurns (o : Operand) (bytes : List Byte) : List Turn := bytes.map fun v => opwrTurn o v

/-- `WAITDONE` in which the sequencer performs `n` micro-operations, the status being read after
each (R82). -/
def waitDoneTurns (n : Nat) : List Turn := (List.replicate n [Turn.sequencer, .hstat]).flatten

/-- `READRES` (R82). -/
def readResTurns : List Turn := (List.finRange 32).map fun n => turnOf (.resrd n)

/-- `MUL a, b` for well-sized operands: load both, start, wait out the call, read the result
(R82, R140). -/
def mulTurns (x y : List Byte) : List Turn :=
  loadTurns .a x ++ loadTurns .b y ++ [turnOf .start] ++ waitDoneTurns 330 ++ readResTurns

end Sys2Proof.Machine
end

