-- ==== Sys2Proof/Safety.lean ====
section
/-! DEFINITION. The terms that claims about the machine use: runs, the invariants of reachable
states, what is public, and the polynomial of a value. None of it is part of the machine. -/

namespace Sys2Proof.Safety

open Sys2Proof.Machine

/-! ## Runs -/

/-- `n` steps, stopping at the first fault or refusal (the run of the host's interface, over
`step` itself). -/
def run : Nat → State → Host.Outcome State Fault Refusal
  | 0, s => .next s
  | n + 1, s =>
    match step s with
    | .next t => run n t
    | .fault f => .fault f
    | .refused r => .refused r

/-- The sequencer word before each of the next `n` steps. -/
def seqTrace : Nat → State → List (BitVec 12)
  | 0, _ => []
  | n + 1, s =>
    s.seq :: match step s with
      | .next t => seqTrace n t
      | _ => []

/-- The operations that the next `n` steps perform. -/
def opTrace : Nat → State → List Instr
  | 0, _ => []
  | n + 1, s =>
    match decode (issued s), step s with
    | .ok i, .next t => i :: opTrace n t
    | _, _ => []

/-- Clock cycles of a sequence of micro-operations (R188). -/
def cycles (trace : List (BitVec 12)) : Nat := (trace.map fun w => (Config.cyclesPerStep w).val).sum

/-! ## Kinds of turns -/

/-- Turns that neither append an operand byte, nor start or reset, nor read the result: the
sequencer's, `STATRD`, and commands with no strobe. -/
def quietTurn : Turn → Bool
  | .sequencer => true
  | .hstat => true
  | .hcmd w => decodeHcmd w == .ok .hnop
  | .hrd _ => false

/-- The byte that a turn appends to an operand, if it does. -/
def appended (o : Operand) (t : Turn) : Option Byte :=
  match o, t with
  | .a, .hcmd w => match decodeHcmd w with
    | .ok (.opwrA v) => some v
    | _ => none
  | .b, .hcmd w => match decodeHcmd w with
    | .ok (.opwrB v) => some v
    | _ => none
  | _, _ => none

/-- Turns of the loading of operands: quiet ones and `OPWR`. -/
def loadTurn (t : Turn) : Bool :=
  quietTurn t || (appended .a t).isSome || (appended .b t).isSome

/-- The bytes that a list of turns appends to an operand, in order. -/
def operandBytes (o : Operand) (ts : List Turn) : List Byte := ts.filterMap fun t => appended o t

/-- A turn of the host that is a `START` command. -/
def startTurn (t : Turn) : Bool :=
  match t with
  | .hcmd w => decodeHcmd w == .ok .start
  | _ => false

/-- The words `0 .. n` of the accumulator, the ones above as 0 (R124's `low(n)`). -/
def lowPart (p : W8) (n : Nat) : W8 := Vector.ofFn fun i : Fin 8 => if i.val ≤ n then p[i] else 0

/-! ## Invariants (spec/10_state.md R38, R23; spec/41_comb_multiplier.md R105) -/

/-- R38, clause by clause, and that a `RESET` has been applied (R181). -/
structure ControlInv (s : State) : Prop where
  /-- (a) -/
  busy_iff : s.busy = true ↔ seqPhase s.seq ≠ phIdle
  /-- (b) -/
  not_busy_done : ¬(s.busy = true ∧ s.done = true)
  /-- (c) -/
  err_done : s.err = true → s.done = true
  /-- (d) -/
  seq_legal : seqLegal s.seq = true
  /-- (e) -/
  lena_le : s.lena.toNat ≤ 33
  /-- (e) -/
  lenb_le : s.lenb.toNat ≤ 33
  /-- (f) -/
  lens_ok : s.busy = true → s.seq ≠ seqChk → s.lena = 32 ∧ s.lenb = 32
  /-- a `RESET` has been applied -/
  reset_seen : s.wasReset = true

/-- R23: in the comb phase at bit position `k`, before that position's shift, the shift buffer holds
`B * 2^k`. -/
def ShiftInv (s : State) : Prop :=
  seqLegal s.seq = true → seqPhase s.seq = phComb →
    val5 s.sb = (val4 s.b).setWidth 320 <<< (seqK s.seq).toNat

/-- What the bits `A[j][n]` with `n < k` contribute to the product, over all four words, and the
bits `A[j'][k]` of the words `j' < j` (R105): XOR of `B * 2^(64 j' + n)`. -/
def partialProduct (a b : BitVec 256) (k j : Nat) : BitVec 512 :=
  (List.range 256).foldl (fun acc n =>
    if a.getLsbD n && (n % 64 < k || (n % 64 == k && n / 64 < j)) then
      acc ^^^ (b.setWidth 512 <<< n) else acc) 0

/-- R105: at `FOLD k, j`, and at `SHL1` with `j = 4`, the accumulator holds the terms folded so
far. -/
def CombInv (s : State) : Prop :=
  seqLegal s.seq = true → seqPhase s.seq = phComb →
    val8 s.c = partialProduct (val4 s.a) (val4 s.b) (seqK s.seq).toNat (seqS s.seq).toNat

/-- What the registers hold along a call, phase by phase, in terms of the 64 operand bytes: the
words after packing, the folded terms, a value congruent to the product, the result (R35, R105,
R124, R96). -/
structure CallInv (s : State) : Prop where
  /-- past `PACKA`, `A` is the packed operand A -/
  a_packed : s.busy = true → s.seq ≠ seqChk → s.seq ≠ seqPackA → s.a = pack s.opa
  /-- past `PACKB`, `B` is the packed operand B -/
  b_packed : s.busy = true → s.seq ≠ seqChk → s.seq ≠ seqPackA → s.seq ≠ seqPackB →
    s.b = pack s.opb
  /-- the comb phase -/
  shift : s.busy = true → ShiftInv s
  /-- the comb phase -/
  comb : s.busy = true → CombInv s
  /-- the reduction phase before its first fold: the product -/
  product : s.busy = true → s.seq = mkSeq phRed 0 3 → s.c = clmul256 s.a s.b
  /-- the reduction phase: the words up to the one to be folded are congruent to the product -/
  reducing : ∀ n : Fin 4, s.busy = true → s.seq = mkSeq phRed 0 (BitVec.ofNat 3 n.val) →
    reduce512 (lowPart s.c (n.val + 4)) = reduce512 (clmul256 s.a s.b)
  /-- after the reduction: the remainder -/
  reduced : s.busy = true → seqPhase s.seq = phStore →
    lowWords s.c = reduce512 (clmul256 s.a s.b)
  /-- after `UNPACK`: the result -/
  unpacked : s.busy = true → s.seq = seqFin → s.res = mulBuf s.opa s.opb

/-! ## What is public (spec/41_comb_multiplier.md R109, spec/70_reset_and_hazards.md R186) -/

/-- A turn without the byte an `OPWR` carries, which is the only secret a turn holds. -/
def publicTurn : Turn → Turn
  | .hcmd w => .hcmd (if w &&& 0xE00 == 0x200 then w &&& 0xF00 else w)
  | t => t

/-- Two states that differ at most in operand bytes, data registers, the result and what the host
has read. -/
structure PublicEq (s t : State) : Prop where
  lena : s.lena = t.lena
  lenb : s.lenb = t.lenb
  busy : s.busy = t.busy
  done : s.done = t.done
  err : s.err = t.err
  seq : s.seq = t.seq
  turns : s.turns.map publicTurn = t.turns.map publicTurn
  draws : s.draws = t.draws
  wasReset : s.wasReset = t.wasReset

/-- Two outcomes of one kind: publicly equal next states, or the same stop. -/
def outcomePublicEq : Host.Outcome State Fault Refusal → Host.Outcome State Fault Refusal → Prop
  | .next s, .next t => PublicEq s t
  | .fault f, .fault g => f = g
  | .refused f, .refused g => f = g
  | _, _ => False

/-- All that the host can observe (R12): the flags, and `RES` while `RES_VALID = 1`. -/
def observe (s : State) : Reply × Option Buf32 :=
  (s.status, if s.resValid then some s.res else none)

/-! ## Whose turn it is, and where the sequencer goes next (spec/10_state.md R32) -/

/-- The next turn is the sequencer's. -/
def sequencersTurn (s : State) : Prop := s.turns = [] ∨ ∃ rest, s.turns = .sequencer :: rest

/-- The successor table of R32, in numbers: `lensOk` says that both operand counters are 32. -/
def successor (w : BitVec 12) (lensOk : Bool) : BitVec 12 :=
  if w = 0x000 then 0x000
  else if w = 0x200 then (if lensOk then 0x201 else 0x000)
  else if w = 0x201 then 0x202
  else if w = 0x202 then 0x203
  else if w = 0x203 then 0x400
  else if w = 0x5FC then 0x603
  else if w = 0x600 then 0x800
  else if w = 0x800 then 0x801
  else if w = 0x801 then 0x000
  else if w.toNat / 512 = 3 then w - 1
  else if w.toNat % 8 = 4 then w + 4
  else w + 1

/-- `OPWR` to an operand, as an operation. -/
def opwr (o : Operand) (v : Byte) : Instr :=
  match o with
  | .a => .opwrA v
  | .b => .opwrB v

/-! ## Frames: what an operation leaves as it was -/

/-- Every byte of the three byte spaces, read as the machine reads it. -/
def SameBytes (s t : State) : Prop := ∀ sp n, memRead t sp n = memRead s sp n

/-- The three stored flags. -/
def SameFlags (s t : State) : Prop := t.busy = s.busy ∧ t.done = s.done ∧ t.err = s.err

/-- The operand counters. -/
def SameLens (s t : State) : Prop := t.lena = s.lena ∧ t.lenb = s.lenb

/-- The word registers `A`, `B`, `SB`, `C`. -/
def SameWords (s t : State) : Prop := t.a = s.a ∧ t.b = s.b ∧ t.sb = s.sb ∧ t.c = s.c

/-- The bitwise XOR of two buffers, byte by byte: the tester's sum of field elements (R154). -/
def xorBuf (x y : Buf32) : Buf32 := Vector.ofFn fun n => x[n] ^^^ y[n]

/-- The XOR of two elements, word by word. -/
def xor4 (x y : W4) : W4 := Vector.ofFn fun n => x[n] ^^^ y[n]

/-- The XOR of two products, word by word. -/
def xor8 (x y : W8) : W8 := Vector.ofFn fun n => x[n] ^^^ y[n]

/-- The buffer `b 00 ... 00`: `ONE` for 1, `ZERO` for 0 (R153). -/
def smallBuf (b : Byte) : Buf32 := Vector.ofFn fun n => if n.val = 0 then b else 0

/-! ## The polynomial of a value (spec/00_scope.md R8) -/

open Polynomial in
/-- `poly(v)`, the sum over n of `v[n] * X^n` with coefficients in GF(2). -/
noncomputable def poly {w : Nat} (v : BitVec w) : Polynomial (ZMod 2) :=
  ∑ n ∈ Finset.range w, if v.getLsbD n then X ^ n else 0

open Polynomial in
/-- The polynomial of a 32-byte buffer: the coefficient of `X^n` is bit `n mod 8` of byte
`n div 8` (R52). -/
noncomputable def bufPoly (x : Buf32) : Polynomial (ZMod 2) :=
  ∑ n : Fin 256, if (x[n.val / 8]'(by omega)).getLsbD (n.val % 8) then X ^ n.val else 0

open Polynomial in
/-- `f(X) = X^256 + X^10 + X^5 + X^2 + 1` (R2). -/
noncomputable def fieldPoly : Polynomial (ZMod 2) := X ^ 256 + X ^ 10 + X ^ 5 + X ^ 2 + 1

end Sys2Proof.Safety
end

