-- ==== Sys2Proof/Certificates/Slice0/Obligations.lean ====
section
/-! DEFINITION. The statements about the model, in the order of OBLIGATIONS.json. Each docstring
names the rules of spec/ it rests on; a clause about a field of the model's own says so. -/

open Sys2Proof Sys2Proof.Machine Sys2Proof.Safety

/-! ## Encodings -/

/-- Every operation is read back from its code (R74, R75, R76, R79). -/
def Obligations.DecodeOfEncode : Prop := ∀ i : Instr, decode (encode i) = .ok i

/-- A code that decodes is the code of what it decodes to: bit for bit in the formats `SEQ`, `HRD`
and `HSTAT`; up to the bits a command ignores in `HCMD` (R76, R79). -/
def Obligations.EncodeOfDecode : Prop :=
  ∀ (c : Code) (i : Instr), decode c = .ok i →
    encode i = match c with
      | .hcmd w =>
        .hcmd (if w.getLsbD 11 then 0x800 else if w &&& 0xE00 = 0x200 then w else w &&& 0xE00)
      | c => c

/-- The codes that decode are exactly those that R80's list of illegal encodings leaves. -/
def Obligations.LegalCodesDecode : Prop :=
  ∀ c : Code, c.wellFormed = true ↔ ∃ i, decode c = .ok i

/-- A few words written out from R76 and R79 decode to the operations they stand for. -/
def Obligations.SpecWordsDecode : Prop :=
  decode (.seq 0b000000000000) = .ok .wait ∧
  decode (.seq 0b001000000001) = .ok .packa ∧
  decode (.seq 0b010111111011) = .ok (.fold 63 3) ∧
  decode (.seq 0b010000001100) = .ok (.shl1 1) ∧
  decode (.seq 0b011000000011) = .ok (.rfold 3) ∧
  decode (.seq 0b100000000001) = .ok .fin ∧
  decode (.hcmd 0b001100000101) = .ok (.opwrB 5) ∧
  decode (.hcmd 0b111000000000) = .ok .reset ∧
  decode (.hrd 0b11111) = .ok (.resrd 31)

/-! ## The step -/

/-- A step performs the operation that the turn's code decodes to, on the state with the turn taken
off; before the first `RESET` only a `RESET` is performed (R58, R149, R181; the turn list is the
model's, log entry 3). -/
def Obligations.StepRunsDecoded : Prop :=
  (∀ (s : State) (i : Instr), s.wasReset = true → sequencersTurn s →
    decode (.seq s.seq) = .ok i → step s = exec i { s with turns := s.turns.tail }) ∧
  (∀ (s : State) (w : BitVec 12) (rest : List Turn) (i : Instr),
    s.wasReset = true ∨ w.getLsbD 11 = true → s.turns = .hcmd w :: rest →
    decode (.hcmd w) = .ok i → step s = exec i { s with turns := rest }) ∧
  (∀ (s : State) (n : Fin 32) (rest : List Turn), s.wasReset = true →
    s.turns = .hrd (BitVec.ofNat 5 n) :: rest →
    step s = exec (.resrd n) { s with turns := rest }) ∧
  (∀ (s : State) (rest : List Turn), s.wasReset = true → s.turns = .hstat :: rest →
    step s = exec .statrd { s with turns := rest })

/-- `withFetchWord` makes the next step perform the operation of the opcode table's number (the
reading of the two 12-bit formats is the model's, log entry 4). -/
def Obligations.FetchWordRunsNext : Prop :=
  ∀ (s : State) (nbits w : Nat) (i : Instr), s.wasReset = true → decodeTableWord nbits w = some i →
    step (s.withFetchWord nbits w) =
      exec i (match tableCode nbits w with
        | .seq v => { s with seq := v }
        | _ => s)

/-- R80: an illegal sequencer word faults the sequencer's step, never passing as a no-op, and
`start` with `op_wr` without `rst` is refused. -/
def Obligations.IllegalCodesStop : Prop :=
  (∀ s : State, s.wasReset = true → sequencersTurn s → seqLegal s.seq = false →
    step s = .fault (.illegalSeq s.seq)) ∧
  (∀ (s : State) (w : BitVec 12) (rest : List Turn), s.wasReset = true →
    s.turns = .hcmd w :: rest → w.getLsbD 11 = false → w.getLsbD 10 = true → w.getLsbD 9 = true →
    step s = .refused .startAndOpwr)

/-- Before the first `RESET` every turn is refused but a `RESET` command, which is performed and
after which the machine is as after any `RESET` (R181). -/
def Obligations.BeforeResetOnlyReset : Prop :=
  ∀ s : State, s.wasReset = false →
    (∃ t, step s = .next t ∧ t.wasReset = true ∧ ∃ w rest, s.turns = .hcmd w :: rest ∧
      w.getLsbD 11 = true) ∨
    (step s = .refused .beforeReset ∧
      ¬∃ w rest, s.turns = .hcmd w :: rest ∧ w.getLsbD 11 = true)

/-! ## The micro-operations of the sequencer -/

/-- `WAIT` (R145) and `HNOP` (R79) change no state. -/
def Obligations.WaitAndHnopChangeNothing : Prop :=
  encode .wait = .seq 0x000 ∧
  ∀ s : State, ∃ t u, exec .wait s = .next t ∧ t = s ∧ exec .hnop s = .next u ∧ u = s

/-- `CHK` passes on two counters of 32, writing `SEQ` alone, and else raises the exception, whose
entry R163 lists; no byte buffer and no word register changes (R143, R163). -/
def Obligations.ChkChecksLengths : Prop :=
  encode .chk = .seq 0x200 ∧
  ∀ s : State, ∃ t, exec .chk s = .next t ∧
    (if s.lena = 32 ∧ s.lenb = 32 then
      t.seq = 0x201 ∧ SameFlags s t ∧ SameLens s t
    else
      t.err = true ∧ t.done = true ∧ t.busy = false ∧ t.lena = 0 ∧ t.lenb = 0 ∧ t.seq = 0x000 ∧
      t.resValid = false ∧ t.errCode = 1) ∧
    SameBytes s t ∧ SameWords s t

/-- `PACKA` and `PACKB`: the coefficient of `X^n`, bit `n mod 8` of byte `n div 8` of the operand's
buffer, becomes bit `n mod 64` of word `n div 64` of the register; nothing else changes but `SEQ`
(R52, R91, R92). -/
def Obligations.PackCopiesCoefficients : Prop :=
  encode .packa = .seq 0x201 ∧ encode .packb = .seq 0x202 ∧
  (∀ s : State, ∃ t, exec .packa s = .next t ∧
    (∀ n : Fin 256, (t.a[n.val / 64]'(by omega)).getLsbD (n.val % 64) =
      (memRead s .opa ⟨n.val / 8, by omega⟩).getLsbD (n.val % 8)) ∧
    t.seq = 0x202 ∧ t.b = s.b ∧ t.sb = s.sb ∧ t.c = s.c ∧
    SameBytes s t ∧ SameFlags s t ∧ SameLens s t) ∧
  (∀ s : State, ∃ t, exec .packb s = .next t ∧
    (∀ n : Fin 256, (t.b[n.val / 64]'(by omega)).getLsbD (n.val % 64) =
      (memRead s .opb ⟨n.val / 8, by omega⟩).getLsbD (n.val % 8)) ∧
    t.seq = 0x203 ∧ t.a = s.a ∧ t.sb = s.sb ∧ t.c = s.c ∧
    SameBytes s t ∧ SameFlags s t ∧ SameLens s t)

/-- `UNPACK`: bit `n mod 64` of word `n div 64` of `C[0..3]` becomes bit `n mod 8` of byte `n div 8`
of `RES`; the operand buffers and every register but `SEQ` keep their values (R52, R94). -/
def Obligations.UnpackCopiesCoefficients : Prop :=
  encode .unpack = .seq 0x800 ∧
  ∀ s : State, ∃ t, exec .unpack s = .next t ∧
    (∀ n : Fin 256, (memRead t .res ⟨n.val / 8, by omega⟩).getLsbD (n.val % 8) =
      (s.c[n.val / 64]'(by omega)).getLsbD (n.val % 64)) ∧
    (∀ sp n, sp ≠ .res → memRead t sp n = memRead s sp n) ∧
    t.seq = 0x801 ∧ SameWords s t ∧ SameFlags s t ∧ SameLens s t

/-- `CINIT`: the accumulator is 0 and the shift buffer is `B` with word 4 zero; `A`, `B` and
everything else but `SEQ` keep their values (R101). -/
def Obligations.CinitInitialises : Prop :=
  encode .cinit = .seq 0x203 ∧
  ∀ s : State, ∃ t, exec .cinit s = .next t ∧
    (∀ i : Fin 8, t.c[i] = 0) ∧ (∀ i : Fin 4, t.sb[i.val] = s.b[i]) ∧ t.sb[4] = 0 ∧
    t.seq = 0x400 ∧ t.a = s.a ∧ t.b = s.b ∧
    SameBytes s t ∧ SameFlags s t ∧ SameLens s t

/-- `FOLD k, j`, word by word: `C[j+i]` takes `SB[i]` under the mask of bit `k` of `A[j]`, for the
five words of the window; the other words of `C` and everything else but `SEQ` keep their values
(R102). -/
def Obligations.FoldXorsWindow : Prop :=
  ∀ (k : Fin 64) (j : Fin 4),
    encode (.fold k j) = .seq (BitVec.ofNat 12 (0x400 + 8 * k.val + j.val)) ∧
    ∀ s : State, ∃ t, exec (.fold k j) s = .next t ∧
      (∀ i : Fin 5, t.c[j.val + i.val]'(by omega) =
        s.c[j.val + i.val]'(by omega) ^^^
          (s.sb[i] &&& (if s.a[j].getLsbD k then BitVec.allOnes 64 else 0))) ∧
      (∀ n : Fin 8, n.val < j.val ∨ j.val + 4 < n.val → t.c[n] = s.c[n]) ∧
      t.seq = BitVec.ofNat 12 (0x400 + 8 * k.val + j.val + 1) ∧
      t.a = s.a ∧ t.b = s.b ∧ t.sb = s.sb ∧
      SameBytes s t ∧ SameFlags s t ∧ SameLens s t

/-- `FOLD k, j` as one 512-bit value: it adds `A[j][k] * X^(64 j) * poly(SB)` (R105). -/
def Obligations.FoldAddsShiftedTerm : Prop :=
  ∀ (k : Fin 64) (j : Fin 4) (s : State), ∃ t, exec (.fold k j) s = .next t ∧
    val8 t.c = val8 s.c ^^^
      (if s.a[j].getLsbD k then (val5 s.sb).setWidth 512 <<< (64 * j.val) else 0)

/-- `SHL1`: the shift buffer, as one 320-bit value, is doubled modulo `2^320`; the successor is the
next bit position, or the reducer's first word after position 63; nothing else changes (R103). -/
def Obligations.Shl1DoublesShiftBuffer : Prop :=
  ∀ k : Fin 64, encode (.shl1 k) = .seq (BitVec.ofNat 12 (0x404 + 8 * k.val)) ∧
    ∀ s : State, ∃ t, exec (.shl1 k) s = .next t ∧
      (val5 t.sb).toNat = (val5 s.sb).toNat * 2 % 2 ^ 320 ∧
      t.seq = (if k.val ≤ 62 then BitVec.ofNat 12 (0x400 + 8 * (k.val + 1)) else 0x603) ∧
      t.a = s.a ∧ t.b = s.b ∧ t.c = s.c ∧
      SameBytes s t ∧ SameFlags s t ∧ SameLens s t

/-- `RFOLD i`, `i = 4 + ss`, word by word: the four low terms into `C[i-4]`, the three high terms
into `C[i-3]`; `C[i]` and every other word keep their values (R121, R122). -/
def Obligations.RfoldFoldsWord : Prop :=
  ∀ ss : Fin 4, encode (.rfold ss) = .seq (BitVec.ofNat 12 (0x600 + ss.val)) ∧
    ∀ s : State, ∃ t, exec (.rfold ss) s = .next t ∧
      t.c[ss.val] = s.c[ss.val] ^^^ s.c[ss.val + 4] ^^^ (s.c[ss.val + 4] <<< 2) ^^^
        (s.c[ss.val + 4] <<< 5) ^^^ (s.c[ss.val + 4] <<< 10) ∧
      t.c[ss.val + 1] = s.c[ss.val + 1] ^^^ (s.c[ss.val + 4] >>> 62) ^^^
        (s.c[ss.val + 4] >>> 59) ^^^ (s.c[ss.val + 4] >>> 54) ∧
      (∀ n : Fin 8, n.val ≠ ss.val → n.val ≠ ss.val + 1 → t.c[n] = s.c[n]) ∧
      t.seq = (if 1 ≤ ss.val then BitVec.ofNat 12 (0x600 + (ss.val - 1)) else 0x800) ∧
      t.a = s.a ∧ t.b = s.b ∧ t.sb = s.sb ∧
      SameBytes s t ∧ SameFlags s t ∧ SameLens s t

/-- `RFOLD i` keeps the residue modulo `f`: words `0..i` before and words `0..i-1` after stand for
congruent polynomials (R123, R124). -/
def Obligations.RfoldKeepsResidue : Prop :=
  ∀ (ss : Fin 4) (s : State), ∃ t, exec (.rfold ss) s = .next t ∧
    fieldPoly ∣ poly (val8 (lowPart s.c (ss.val + 4))) - poly (val8 (lowPart t.c (ss.val + 3)))

/-- `FIN`: the call has ended with a result, the operands are consumed and the sequencer is idle;
`ERR` and everything else keep their values (R146). -/
def Obligations.FinEndsCall : Prop :=
  encode .fin = .seq 0x801 ∧
  ∀ s : State, ∃ t, exec .fin s = .next t ∧
    t.done = true ∧ t.busy = false ∧ t.lena = 0 ∧ t.lenb = 0 ∧ t.seq = 0x000 ∧ t.err = s.err ∧
    SameBytes s t ∧ SameWords s t

/-! ## The operations of the host -/

/-- `RESET` is performed in every state: the control state takes its reset values and `STATRD` then
returns zeros; the data registers are left unspecified, so nothing is said of them. That the turns
still to come, the host's last reply and the mark of a `RESET` are as stated is the model's (log
entries 3, 5, 6) (R149, R180). -/
def Obligations.ResetClearsControl : Prop :=
  (∀ w : BitVec 12, decode (.hcmd w) = .ok .reset ↔ w &&& 0x800 = 0x800) ∧
  ∀ s : State, ∃ t, exec .reset s = .next t ∧
    t.busy = false ∧ t.done = false ∧ t.err = false ∧ t.lena = 0 ∧ t.lenb = 0 ∧ t.seq = 0x000 ∧
    t.status = .status false false false false ∧
    t.turns = s.turns ∧ t.reply = s.reply ∧ t.wasReset = true

/-- `START` begins a call when none is in progress, so that the previous result is no longer
readable, and is refused when one is; no counter and no data register changes (R142). -/
def Obligations.StartBeginsCall : Prop :=
  (∀ w : BitVec 12, decode (.hcmd w) = .ok .start ↔ w &&& 0xE00 = 0x400) ∧
  (∀ s : State, s.busy = false → ∃ t, exec .start s = .next t ∧
    t.busy = true ∧ t.done = false ∧ t.err = false ∧ t.seq = 0x200 ∧ t.resValid = false ∧
    SameBytes s t ∧ SameWords s t ∧ SameLens s t) ∧
  (∀ s : State, s.busy = true → exec .start s = .refused .startWhileBusy)

/-- `OPWR` stores the byte at the index its counter gives while that is at most 31 and nowhere else
or later, and counts it up to 33; every other byte, the other counter, the flags and every other
register keep their values. During a call it is refused (R141). -/
def Obligations.OpwrAppendsByte : Prop :=
  (∀ v : Byte, encode (.opwrA v) = .hcmd (BitVec.ofNat 12 (0x200 + v.toNat)) ∧
    encode (.opwrB v) = .hcmd (BitVec.ofNat 12 (0x300 + v.toNat))) ∧
  (∀ (o : Operand) (v : Byte) (s : State), s.busy = false → ∃ t, exec (opwr o v) s = .next t ∧
    (∀ n : Fin 32, (s.len o).toNat = n.val → memRead t (operandSpace o) n = v) ∧
    (∀ sp n, sp ≠ operandSpace o ∨ n.val ≠ (s.len o).toNat → memRead t sp n = memRead s sp n) ∧
    t.len o = (if (s.len o).toNat ≤ 32 then s.len o + 1 else s.len o) ∧
    (∀ p, p ≠ o → t.len p = s.len p) ∧
    SameFlags s t ∧ SameWords s t ∧ t.seq = s.seq) ∧
  (∀ (o : Operand) (v : Byte) (s : State), s.busy = true →
    exec (opwr o v) s = .refused .opwrWhileBusy)

/-- `RESRD n` returns `RES[n]` while `RES_VALID = 1` and is refused otherwise; no register of the
hardware changes (R147; that the value goes to the field `reply` is the model's, log entry 5). -/
def Obligations.ResrdReturnsResult : Prop :=
  (∀ (n : Fin 32) (s : State), s.done = true → s.err = false → ∃ t, exec (.resrd n) s = .next t ∧
    t.reply = some (.byte (memRead s .res n)) ∧
    SameBytes s t ∧ SameWords s t ∧ SameFlags s t ∧ SameLens s t ∧ t.seq = s.seq) ∧
  (∀ (n : Fin 32) (s : State), s.done = false ∨ s.err = true →
    exec (.resrd n) s = .refused .resultNotValid)

/-- `STATRD` returns the three flags and `RES_VALID = DONE & ~ERR` in every state; no register of
the hardware changes (R148; the field `reply` is the model's, log entry 5). -/
def Obligations.StatrdReturnsFlags : Prop :=
  ∀ s : State, ∃ t, exec .statrd s = .next t ∧
    t.reply = some (.status s.busy s.done s.err (s.done && !s.err)) ∧
    SameBytes s t ∧ SameWords s t ∧ SameFlags s t ∧ SameLens s t ∧ t.seq = s.seq

/-- What no operation does to the model's own fields: none writes the turns still to come, only
`RESET` draws free values and marks a reset, and only `RESRD` and `STATRD` give the host a value
(the model's, log entries 2, 3, 5, 6). -/
def Obligations.ModelFieldsKept : Prop :=
  ∀ (i : Instr) (s t : State), exec i s = .next t →
    t.turns = s.turns ∧
    (i ≠ .reset → t.draws = s.draws ∧ t.wasReset = s.wasReset) ∧
    ((∀ n, i ≠ .resrd n) → i ≠ .statrd → t.reply = s.reply)

/-! ## Invariants and rules of the whole machine -/

/-- The state after reset meets the invariants (R37, R38). -/
def Obligations.ResetMeetsInvariants : Prop :=
  ControlInv State.reset ∧ ShiftInv State.reset ∧ CallInv State.reset

/-- R37: the control state after reset. The data registers, the turn list, the reply, the draw
counter and the reset mark are the model's (log entries 1, 2, 3, 5, 6) and are not stated. -/
def Obligations.ResetValues : Prop :=
  State.reset.busy = false ∧ State.reset.done = false ∧ State.reset.err = false ∧
  State.reset.resValid = false ∧ State.reset.errCode = 0 ∧
  State.reset.lena = 0 ∧ State.reset.lenb = 0 ∧
  seqPhase State.reset.seq = 0 ∧ seqK State.reset.seq = 0 ∧ seqS State.reset.seq = 0

/-- R38 (a) to (f) hold after every step from a state where they hold, whoever takes the turn. -/
def Obligations.StepKeepsControlInv : Prop :=
  ∀ s t : State, ControlInv s → step s = .next t → ControlInv t

/-- R23: every step keeps `SBV = BV * 2^k` through the comb phase. -/
def Obligations.StepKeepsShiftInv : Prop :=
  ∀ s t : State, ShiftInv s → step s = .next t → ShiftInv t

/-- Every step keeps what the registers hold along a call: packed operands, the terms folded so far,
the residue of the product, the result (R35, R96, R105, R124). -/
def Obligations.StepKeepsCallInv : Prop :=
  ∀ s t : State, ControlInv s → CallInv s → step s = .next t → CallInv t

/-- R30: which operations set and clear each flag. -/
def Obligations.FlagsChangeOnlyAsListed : Prop :=
  ∀ (s t : State) (i : Instr), decode (issued s) = .ok i → step s = .next t →
    (s.busy = false → t.busy = true → i = .start) ∧
    (s.busy = true → t.busy = false → i = .fin ∨ i = .chk ∧ lengthsOk s = false ∨ i = .reset) ∧
    (s.done = false → t.done = true → i = .fin ∨ i = .chk ∧ lengthsOk s = false) ∧
    (s.done = true → t.done = false → i = .start ∨ i = .reset) ∧
    (s.err = false → t.err = true → i = .chk ∧ lengthsOk s = false) ∧
    (s.err = true → t.err = false → i = .start ∨ i = .reset)

/-- R21 to R28, R51: which operations write each register, counter and byte buffer; `RESET` leaves
the data registers unspecified (R180). -/
def Obligations.RegistersWrittenOnlyAsListed : Prop :=
  ∀ (s t : State) (i : Instr), decode (issued s) = .ok i → step s = .next t →
    (t.a ≠ s.a → i = .packa ∨ i = .reset) ∧
    (t.b ≠ s.b → i = .packb ∨ i = .reset) ∧
    (t.sb ≠ s.sb → i = .cinit ∨ (∃ k, i = .shl1 k) ∨ i = .reset) ∧
    (t.c ≠ s.c → i = .cinit ∨ (∃ k j, i = .fold k j) ∨ (∃ ss, i = .rfold ss) ∨ i = .reset) ∧
    (t.opa ≠ s.opa → (∃ v, i = .opwrA v) ∨ i = .reset) ∧
    (t.opb ≠ s.opb → (∃ v, i = .opwrB v) ∨ i = .reset) ∧
    (t.res ≠ s.res → i = .unpack ∨ i = .reset) ∧
    (t.lena ≠ s.lena → (∃ v, i = .opwrA v) ∨ i = .fin ∨ i = .chk ∨ i = .reset) ∧
    (t.lenb ≠ s.lenb → (∃ v, i = .opwrB v) ∨ i = .fin ∨ i = .chk ∨ i = .reset)

/-- R148: the status values that the invariant of reachable states leaves. -/
def Obligations.ReachableStatusValues : Prop :=
  ∀ s : State, ControlInv s →
    s.status = .status false false false false ∨ s.status = .status true false false false ∨
    s.status = .status false true false true ∨ s.status = .status false true true false

/-- R32: the sequencer's step writes the successor of the table, which depends on `SEQ` and, at
`CHK`, on the two counters, and on nothing else. -/
def Obligations.SequencerFollowsTable : Prop :=
  ∀ s : State, s.wasReset = true → sequencersTurn s → seqLegal s.seq = true →
    ∃ t, step s = .next t ∧ t.seq = successor s.seq (s.lena == 32 && s.lenb == 32)

/-- No state that meets the invariant faults; a refusal is one of the four violations of R184, each
with its guard, and none is a `RESET` or a `STATRD` (R160, R167, R183, R184). -/
def Obligations.OnlyProtocolViolationsStop : Prop :=
  ∀ s : State, ControlInv s →
    (∃ t, step s = .next t) ∨
    (∃ w rest, s.turns = .hcmd w :: rest ∧ w.getLsbD 11 = false ∧ w.getLsbD 10 = true ∧
      w.getLsbD 9 = true ∧ step s = .refused .startAndOpwr) ∨
    (∃ w rest, s.turns = .hcmd w :: rest ∧ w &&& 0xE00 = 0x400 ∧ s.busy = true ∧
      step s = .refused .startWhileBusy) ∨
    (∃ w rest, s.turns = .hcmd w :: rest ∧ w &&& 0xE00 = 0x200 ∧ s.busy = true ∧
      step s = .refused .opwrWhileBusy) ∨
    (∃ n rest, s.turns = .hrd n :: rest ∧ s.resValid = false ∧
      step s = .refused .resultNotValid)

/-! ## Calls -/

/-- R108: from `CINIT` on, 321 micro-operations put the carry-less product of `A` and `B` into `C`
and `B * 2^64` into `SB`, with `A`, `B` and every other register unchanged. -/
def Obligations.CmulComputesProduct : Prop :=
  ∀ s : State, s.wasReset = true → s.turns = [] → s.seq = 0x203 →
    ∃ t, run 321 s = .next t ∧ t.c = clmul256 s.a s.b ∧
      t.sb[0] = 0 ∧ (∀ i : Fin 4, t.sb[i.val + 1] = s.b[i]) ∧
      t.seq = 0x603 ∧ t.a = s.a ∧ t.b = s.b ∧
      SameBytes s t ∧ SameFlags s t ∧ SameLens s t

/-- R127: from `RFOLD 7` on, four micro-operations put the remainder into `C[0..3]` and leave the
scratch words as stated, with every other register unchanged. -/
def Obligations.RedcComputesRemainder : Prop :=
  ∀ s : State, s.wasReset = true → s.turns = [] → s.seq = 0x603 →
    ∃ t, run 4 s = .next t ∧ lowWords t.c = reduce512 s.c ∧
      t.c[4] = s.c[4] ^^^ (s.c[7] >>> 62) ^^^ (s.c[7] >>> 59) ^^^ (s.c[7] >>> 54) ∧
      t.c[5] = s.c[5] ∧ t.c[6] = s.c[6] ∧ t.c[7] = s.c[7] ∧
      t.seq = 0x800 ∧ t.a = s.a ∧ t.b = s.b ∧ t.sb = s.sb ∧
      SameBytes s t ∧ SameFlags s t ∧ SameLens s t

/-- R77, R187: a call with two well-sized operands performs exactly the 330 micro-operations of the
hardwired program, in its order. -/
def Obligations.CallRunsHardwiredProgram : Prop :=
  ∀ s : State, s.wasReset = true → s.turns = [] → s.seq = 0x200 → s.lena = 32 → s.lenb = 32 →
    mulseq.length = 330 ∧ opTrace 330 s = mulseq ∧ seqTrace 330 s = mulseq.map (fun i =>
      match encode i with
      | .seq w => w
      | _ => 0)

/-- Loading: with no call in progress, turns that append bytes, in any interleaving with each other
and with the sequencer's, leave in each buffer the first 32 bytes appended to it and in each counter
their number, 33 standing for more (R58, R141, R162). -/
def Obligations.LoadingStoresOperands : Prop :=
  ∀ (s : State) (ts rest : List Turn), ControlInv s → s.busy = false → s.lena = 0 → s.lenb = 0 →
    s.turns = ts ++ rest → (∀ u ∈ ts, loadTurn u = true) →
    ∃ t, run ts.length s = .next t ∧ t.turns = rest ∧
      t.lena.toNat = min (operandBytes .a ts).length 33 ∧
      t.lenb.toNat = min (operandBytes .b ts).length 33 ∧
      (∀ n : Fin 32, memRead t .opa n = ((operandBytes .a ts)[n.val]?).getD (memRead s .opa n)) ∧
      (∀ n : Fin 32, memRead t .opb n = ((operandBytes .b ts)[n.val]?).getD (memRead s .opb n)) ∧
      t.res = s.res ∧ SameWords s t ∧ SameFlags s t ∧ t.seq = s.seq

/-- R151, a call with two operands of 32 bytes: from an idle state whose counters are 0, whatever
the interleaving of the loading, after `START` and 330 turns of the sequencer among quiet turns of
the host the result is the product of the operands; before that the call is in progress. -/
def Obligations.CallComputesProduct : Prop :=
  ∀ (s : State) (ts post : List Turn) (u : Turn), ControlInv s → s.busy = false →
    s.lena = 0 → s.lenb = 0 → s.turns = ts ++ u :: post →
    (∀ v ∈ ts, loadTurn v = true) → startTurn u = true → (∀ v ∈ post, quietTurn v = true) →
    (operandBytes .a ts).length = 32 → (operandBytes .b ts).length = 32 →
    (post.count .sequencer < 330 →
      ∃ t, run (ts.length + 1 + post.length) s = .next t ∧ t.busy = true ∧ t.done = false) ∧
    (post.count .sequencer = 330 →
      ∃ t, run (ts.length + 1 + post.length) s = .next t ∧
        t.busy = false ∧ t.done = true ∧ t.err = false ∧ t.lena = 0 ∧ t.lenb = 0 ∧ t.seq = 0x000 ∧
        multiply (operandBytes .a ts) (operandBytes .b ts) = .ok t.res)

/-- R151, a call with a wrong length: the first turn of the sequencer after `START` ends it with
the exception; `RES`, `A`, `B`, `SB`, `C` are as before (R162, R163). -/
def Obligations.WrongLengthEndsCall : Prop :=
  ∀ (s : State) (ts post : List Turn) (u : Turn), ControlInv s → s.busy = false →
    s.lena = 0 → s.lenb = 0 → s.turns = ts ++ u :: post →
    (∀ v ∈ ts, loadTurn v = true) → startTurn u = true → (∀ v ∈ post, quietTurn v = true) →
    multiply (operandBytes .a ts) (operandBytes .b ts) = .error .invalidInputLength →
    (post.count .sequencer = 0 →
      ∃ t, run (ts.length + 1 + post.length) s = .next t ∧ t.busy = true ∧ t.done = false) ∧
    (1 ≤ post.count .sequencer →
      ∃ t, run (ts.length + 1 + post.length) s = .next t ∧
        t.busy = false ∧ t.done = true ∧ t.err = true ∧ t.lena = 0 ∧ t.lenb = 0 ∧ t.seq = 0x000 ∧
        t.res = s.res ∧ SameWords s t)

/-- R158, R183: every call terminates: from any state of a call that meets the invariant, the
sequencer alone ends it within 330 steps. -/
def Obligations.EveryCallTerminates : Prop :=
  ∀ s : State, ControlInv s → s.busy = true → s.turns = [] →
    ∃ n t, 1 ≤ n ∧ n ≤ 330 ∧ run n s = .next t ∧ t.busy = false ∧ t.done = true ∧ t.seq = 0x000

/-- R35: a call's observable end does not depend on what earlier calls left behind: from two idle
states with the same turns to come, of any contents, the host observes the same. -/
def Obligations.HistoryDoesNotMatter : Prop :=
  ∀ (s s' : State) (ts post : List Turn) (u : Turn), ControlInv s → ControlInv s' →
    s.busy = false → s'.busy = false → s.lena = 0 → s.lenb = 0 → s'.lena = 0 → s'.lenb = 0 →
    s.turns = ts ++ u :: post → s'.turns = ts ++ u :: post →
    (∀ v ∈ ts, loadTurn v = true) → startTurn u = true → (∀ v ∈ post, quietTurn v = true) →
    ∃ t t', run (ts.length + 1 + post.length) s = .next t ∧
      run (ts.length + 1 + post.length) s' = .next t' ∧ observe t = observe t'

/-! ## Constant time -/

/-- R109 (d), R186: what is public after a step depends only on what was public before: never on an
operand byte, a data register or the result. -/
def Obligations.StepHidesData : Prop :=
  ∀ s t : State, PublicEq s t → outcomePublicEq (step s) (step t)

/-- R109: for any two operand pairs the sequences of `SEQ` values are equal, at every length of the
run, and so are the clock cycles, whatever each micro-operation takes (R188). -/
def Obligations.TracesAreEqual : Prop :=
  ∀ (n : Nat) (s t : State), PublicEq s t →
    seqTrace n s = seqTrace n t ∧ cycles (seqTrace n s) = cycles (seqTrace n t)

/-- R58 (e), R171: turns of two different instances commute, so neither can affect the other. -/
def Obligations.InstancesAreIndependent : Prop :=
  ∀ (count : Nat) (sys sm sn : System count) (m n : Fin count), m ≠ n →
    systemStep sys m = .next sm → systemStep sys n = .next sn →
    ∃ t, systemStep sm n = .next t ∧ systemStep sn m = .next t ∧
      (∀ k, k ≠ m → sm[k] = sys[k])

/-! ## The function level -/

/-- R93: byte `n` of an unpacked element, and that unpacking is the exact inverse of packing, on both
sides. -/
def Obligations.PackUnpackInverse : Prop :=
  (∀ (v : W4) (n : Fin 32),
    (unpack v)[n] = ((v[n.val / 8]'(by omega) >>> (8 * (n.val % 8))) &&& 0xFF).setWidth 8) ∧
  (∀ x : Buf32, unpack (pack x) = x) ∧ (∀ v : W4, pack (unpack v) = v)

/-- R90, R96: packing keeps the polynomial. -/
def Obligations.PackKeepsPolynomial : Prop := ∀ x : Buf32, poly (val4 (pack x)) = bufPoly x

/-- R107: `clmul256` is the product of polynomials over GF(2), and its laws. -/
def Obligations.ClmulIsPolynomialProduct : Prop :=
  (∀ x y : W4, poly (val8 (clmul256 x y)) = poly (val4 x) * poly (val4 y)) ∧
  (∀ x y : W4, clmul256 x y = clmul256 y x) ∧
  (∀ x : W4, clmul256 x (split4 0) = split8 0) ∧
  (∀ x : W4, clmul256 x (split4 1) = split8 ((val4 x).setWidth 512)) ∧
  (∀ x y z : W4, clmul256 x (xor4 y z) = xor8 (clmul256 x y) (clmul256 x z))

/-- R106: a product has degree at most 510, so `C[7][63] = 0`. -/
def Obligations.ProductHasDegree510 : Prop :=
  ∀ x y : W4, (clmul256 x y)[7].getLsbD 63 = false

/-- R126: `reduce512` is the remainder modulo `f`, for every 512-bit value (R128). -/
def Obligations.ReduceIsRemainder : Prop :=
  ∀ p : W8, poly (val4 (reduce512 p)) = poly (val8 p) %ₘ fieldPoly

/-- R126's laws: a value of degree below 256 is unchanged, the map is linear, and
`X^256 mod f = 0x425` (R123). -/
def Obligations.ReduceLaws : Prop :=
  (∀ v : W4, reduce512 (split8 ((val4 v).setWidth 512)) = v) ∧
  (∀ p q : W8, reduce512 (xor8 p q) = xor4 (reduce512 p) (reduce512 q)) ∧
  reduce512 #v[0, 0, 0, 0, 1, 0, 0, 0] = #v[0x425, 0, 0, 0]

/-- R150: the result's polynomial is the product of the operands' modulo `f`; on any other lengths
the function is `InvalidInputLength`. -/
def Obligations.MultiplyIsFieldProduct : Prop :=
  (∀ x y : Buf32, bufPoly (mulBuf x y) = (bufPoly x * bufPoly y) %ₘ fieldPoly) ∧
  (∀ x y : List Byte, x.length = 32 → y.length = 32 →
    multiply x y = .ok (mulBuf (bufferOf x) (bufferOf y))) ∧
  (∀ x y : List Byte, x.length ≠ 32 ∨ y.length ≠ 32 → multiply x y = .error .invalidInputLength)

/-- R152. -/
def Obligations.MultiplyCommutes : Prop := ∀ x y : Buf32, mulBuf x y = mulBuf y x

/-- R153, with the operands in either order. -/
def Obligations.MultiplyByOneAndZero : Prop :=
  ∀ x : Buf32, mulBuf x (smallBuf 1) = x ∧ mulBuf (smallBuf 1) x = x ∧
    mulBuf x (smallBuf 0) = smallBuf 0 ∧ mulBuf (smallBuf 0) x = smallBuf 0

/-- R154. -/
def Obligations.MultiplyDistributes : Prop :=
  ∀ x y z : Buf32, mulBuf x (xorBuf y z) = xorBuf (mulBuf x y) (mulBuf x z)

/-- R155. -/
def Obligations.MultiplyAssociates : Prop :=
  ∀ x y z : Buf32, mulBuf (mulBuf x y) z = mulBuf x (mulBuf y z)

/-- 256 squarings return the seed (R157, which marks this as general knowledge, K1, and not as a
statement of the source). -/
def Obligations.SquaringReturnsSeed : Prop := ∀ x : Buf32, (fun y => mulBuf y y)^[256] x = x
end

