-- ==== Sys2Proof/Laws/State.lean ====
section
/-! SUPPORT. The fields of a state after each update: one lemma per field per update, all by
definition, so that no proof unfolds a record update. -/

namespace Sys2Proof.Machine

variable (s : State)

/-! ### `State.setA` -/

@[simp] theorem State.setA_opa (x : W4) : (s.setA x).opa = s.opa := rfl
@[simp] theorem State.setA_opb (x : W4) : (s.setA x).opb = s.opb := rfl
@[simp] theorem State.setA_lena (x : W4) : (s.setA x).lena = s.lena := rfl
@[simp] theorem State.setA_lenb (x : W4) : (s.setA x).lenb = s.lenb := rfl
@[simp] theorem State.setA_a (x : W4) : (s.setA x).a = x := rfl
@[simp] theorem State.setA_b (x : W4) : (s.setA x).b = s.b := rfl
@[simp] theorem State.setA_sb (x : W4) : (s.setA x).sb = s.sb := rfl
@[simp] theorem State.setA_c (x : W4) : (s.setA x).c = s.c := rfl
@[simp] theorem State.setA_res (x : W4) : (s.setA x).res = s.res := rfl
@[simp] theorem State.setA_busy (x : W4) : (s.setA x).busy = s.busy := rfl
@[simp] theorem State.setA_done (x : W4) : (s.setA x).done = s.done := rfl
@[simp] theorem State.setA_err (x : W4) : (s.setA x).err = s.err := rfl
@[simp] theorem State.setA_seq (x : W4) : (s.setA x).seq = s.seq := rfl
@[simp] theorem State.setA_turns (x : W4) : (s.setA x).turns = s.turns := rfl
@[simp] theorem State.setA_reply (x : W4) : (s.setA x).reply = s.reply := rfl
@[simp] theorem State.setA_draws (x : W4) : (s.setA x).draws = s.draws := rfl
@[simp] theorem State.setA_wasReset (x : W4) : (s.setA x).wasReset = s.wasReset := rfl

/-! ### `State.setB` -/

@[simp] theorem State.setB_opa (x : W4) : (s.setB x).opa = s.opa := rfl
@[simp] theorem State.setB_opb (x : W4) : (s.setB x).opb = s.opb := rfl
@[simp] theorem State.setB_lena (x : W4) : (s.setB x).lena = s.lena := rfl
@[simp] theorem State.setB_lenb (x : W4) : (s.setB x).lenb = s.lenb := rfl
@[simp] theorem State.setB_a (x : W4) : (s.setB x).a = s.a := rfl
@[simp] theorem State.setB_b (x : W4) : (s.setB x).b = x := rfl
@[simp] theorem State.setB_sb (x : W4) : (s.setB x).sb = s.sb := rfl
@[simp] theorem State.setB_c (x : W4) : (s.setB x).c = s.c := rfl
@[simp] theorem State.setB_res (x : W4) : (s.setB x).res = s.res := rfl
@[simp] theorem State.setB_busy (x : W4) : (s.setB x).busy = s.busy := rfl
@[simp] theorem State.setB_done (x : W4) : (s.setB x).done = s.done := rfl
@[simp] theorem State.setB_err (x : W4) : (s.setB x).err = s.err := rfl
@[simp] theorem State.setB_seq (x : W4) : (s.setB x).seq = s.seq := rfl
@[simp] theorem State.setB_turns (x : W4) : (s.setB x).turns = s.turns := rfl
@[simp] theorem State.setB_reply (x : W4) : (s.setB x).reply = s.reply := rfl
@[simp] theorem State.setB_draws (x : W4) : (s.setB x).draws = s.draws := rfl
@[simp] theorem State.setB_wasReset (x : W4) : (s.setB x).wasReset = s.wasReset := rfl

/-! ### `State.setSb` -/

@[simp] theorem State.setSb_opa (x : W5) : (s.setSb x).opa = s.opa := rfl
@[simp] theorem State.setSb_opb (x : W5) : (s.setSb x).opb = s.opb := rfl
@[simp] theorem State.setSb_lena (x : W5) : (s.setSb x).lena = s.lena := rfl
@[simp] theorem State.setSb_lenb (x : W5) : (s.setSb x).lenb = s.lenb := rfl
@[simp] theorem State.setSb_a (x : W5) : (s.setSb x).a = s.a := rfl
@[simp] theorem State.setSb_b (x : W5) : (s.setSb x).b = s.b := rfl
@[simp] theorem State.setSb_sb (x : W5) : (s.setSb x).sb = x := rfl
@[simp] theorem State.setSb_c (x : W5) : (s.setSb x).c = s.c := rfl
@[simp] theorem State.setSb_res (x : W5) : (s.setSb x).res = s.res := rfl
@[simp] theorem State.setSb_busy (x : W5) : (s.setSb x).busy = s.busy := rfl
@[simp] theorem State.setSb_done (x : W5) : (s.setSb x).done = s.done := rfl
@[simp] theorem State.setSb_err (x : W5) : (s.setSb x).err = s.err := rfl
@[simp] theorem State.setSb_seq (x : W5) : (s.setSb x).seq = s.seq := rfl
@[simp] theorem State.setSb_turns (x : W5) : (s.setSb x).turns = s.turns := rfl
@[simp] theorem State.setSb_reply (x : W5) : (s.setSb x).reply = s.reply := rfl
@[simp] theorem State.setSb_draws (x : W5) : (s.setSb x).draws = s.draws := rfl
@[simp] theorem State.setSb_wasReset (x : W5) : (s.setSb x).wasReset = s.wasReset := rfl

/-! ### `State.setC` -/

@[simp] theorem State.setC_opa (x : W8) : (s.setC x).opa = s.opa := rfl
@[simp] theorem State.setC_opb (x : W8) : (s.setC x).opb = s.opb := rfl
@[simp] theorem State.setC_lena (x : W8) : (s.setC x).lena = s.lena := rfl
@[simp] theorem State.setC_lenb (x : W8) : (s.setC x).lenb = s.lenb := rfl
@[simp] theorem State.setC_a (x : W8) : (s.setC x).a = s.a := rfl
@[simp] theorem State.setC_b (x : W8) : (s.setC x).b = s.b := rfl
@[simp] theorem State.setC_sb (x : W8) : (s.setC x).sb = s.sb := rfl
@[simp] theorem State.setC_c (x : W8) : (s.setC x).c = x := rfl
@[simp] theorem State.setC_res (x : W8) : (s.setC x).res = s.res := rfl
@[simp] theorem State.setC_busy (x : W8) : (s.setC x).busy = s.busy := rfl
@[simp] theorem State.setC_done (x : W8) : (s.setC x).done = s.done := rfl
@[simp] theorem State.setC_err (x : W8) : (s.setC x).err = s.err := rfl
@[simp] theorem State.setC_seq (x : W8) : (s.setC x).seq = s.seq := rfl
@[simp] theorem State.setC_turns (x : W8) : (s.setC x).turns = s.turns := rfl
@[simp] theorem State.setC_reply (x : W8) : (s.setC x).reply = s.reply := rfl
@[simp] theorem State.setC_draws (x : W8) : (s.setC x).draws = s.draws := rfl
@[simp] theorem State.setC_wasReset (x : W8) : (s.setC x).wasReset = s.wasReset := rfl

/-! ### `State.setSeq` -/

@[simp] theorem State.setSeq_opa (w : BitVec 12) : (s.setSeq w).opa = s.opa := rfl
@[simp] theorem State.setSeq_opb (w : BitVec 12) : (s.setSeq w).opb = s.opb := rfl
@[simp] theorem State.setSeq_lena (w : BitVec 12) : (s.setSeq w).lena = s.lena := rfl
@[simp] theorem State.setSeq_lenb (w : BitVec 12) : (s.setSeq w).lenb = s.lenb := rfl
@[simp] theorem State.setSeq_a (w : BitVec 12) : (s.setSeq w).a = s.a := rfl
@[simp] theorem State.setSeq_b (w : BitVec 12) : (s.setSeq w).b = s.b := rfl
@[simp] theorem State.setSeq_sb (w : BitVec 12) : (s.setSeq w).sb = s.sb := rfl
@[simp] theorem State.setSeq_c (w : BitVec 12) : (s.setSeq w).c = s.c := rfl
@[simp] theorem State.setSeq_res (w : BitVec 12) : (s.setSeq w).res = s.res := rfl
@[simp] theorem State.setSeq_busy (w : BitVec 12) : (s.setSeq w).busy = s.busy := rfl
@[simp] theorem State.setSeq_done (w : BitVec 12) : (s.setSeq w).done = s.done := rfl
@[simp] theorem State.setSeq_err (w : BitVec 12) : (s.setSeq w).err = s.err := rfl
@[simp] theorem State.setSeq_seq (w : BitVec 12) : (s.setSeq w).seq = w := rfl
@[simp] theorem State.setSeq_turns (w : BitVec 12) : (s.setSeq w).turns = s.turns := rfl
@[simp] theorem State.setSeq_reply (w : BitVec 12) : (s.setSeq w).reply = s.reply := rfl
@[simp] theorem State.setSeq_draws (w : BitVec 12) : (s.setSeq w).draws = s.draws := rfl
@[simp] theorem State.setSeq_wasReset (w : BitVec 12) : (s.setSeq w).wasReset = s.wasReset := rfl

/-! ### `State.clearLens` -/

@[simp] theorem State.clearLens_opa : (s.clearLens).opa = s.opa := rfl
@[simp] theorem State.clearLens_opb : (s.clearLens).opb = s.opb := rfl
@[simp] theorem State.clearLens_lena : (s.clearLens).lena = 0 := rfl
@[simp] theorem State.clearLens_lenb : (s.clearLens).lenb = 0 := rfl
@[simp] theorem State.clearLens_a : (s.clearLens).a = s.a := rfl
@[simp] theorem State.clearLens_b : (s.clearLens).b = s.b := rfl
@[simp] theorem State.clearLens_sb : (s.clearLens).sb = s.sb := rfl
@[simp] theorem State.clearLens_c : (s.clearLens).c = s.c := rfl
@[simp] theorem State.clearLens_res : (s.clearLens).res = s.res := rfl
@[simp] theorem State.clearLens_busy : (s.clearLens).busy = s.busy := rfl
@[simp] theorem State.clearLens_done : (s.clearLens).done = s.done := rfl
@[simp] theorem State.clearLens_err : (s.clearLens).err = s.err := rfl
@[simp] theorem State.clearLens_seq : (s.clearLens).seq = s.seq := rfl
@[simp] theorem State.clearLens_turns : (s.clearLens).turns = s.turns := rfl
@[simp] theorem State.clearLens_reply : (s.clearLens).reply = s.reply := rfl
@[simp] theorem State.clearLens_draws : (s.clearLens).draws = s.draws := rfl
@[simp] theorem State.clearLens_wasReset : (s.clearLens).wasReset = s.wasReset := rfl

/-! ### `State.flagsBusy` -/

@[simp] theorem State.flagsBusy_opa : (s.flagsBusy).opa = s.opa := rfl
@[simp] theorem State.flagsBusy_opb : (s.flagsBusy).opb = s.opb := rfl
@[simp] theorem State.flagsBusy_lena : (s.flagsBusy).lena = s.lena := rfl
@[simp] theorem State.flagsBusy_lenb : (s.flagsBusy).lenb = s.lenb := rfl
@[simp] theorem State.flagsBusy_a : (s.flagsBusy).a = s.a := rfl
@[simp] theorem State.flagsBusy_b : (s.flagsBusy).b = s.b := rfl
@[simp] theorem State.flagsBusy_sb : (s.flagsBusy).sb = s.sb := rfl
@[simp] theorem State.flagsBusy_c : (s.flagsBusy).c = s.c := rfl
@[simp] theorem State.flagsBusy_res : (s.flagsBusy).res = s.res := rfl
@[simp] theorem State.flagsBusy_busy : (s.flagsBusy).busy = true := rfl
@[simp] theorem State.flagsBusy_done : (s.flagsBusy).done = false := rfl
@[simp] theorem State.flagsBusy_err : (s.flagsBusy).err = false := rfl
@[simp] theorem State.flagsBusy_seq : (s.flagsBusy).seq = s.seq := rfl
@[simp] theorem State.flagsBusy_turns : (s.flagsBusy).turns = s.turns := rfl
@[simp] theorem State.flagsBusy_reply : (s.flagsBusy).reply = s.reply := rfl
@[simp] theorem State.flagsBusy_draws : (s.flagsBusy).draws = s.draws := rfl
@[simp] theorem State.flagsBusy_wasReset : (s.flagsBusy).wasReset = s.wasReset := rfl

/-! ### `State.flagsDone` -/

@[simp] theorem State.flagsDone_opa : (s.flagsDone).opa = s.opa := rfl
@[simp] theorem State.flagsDone_opb : (s.flagsDone).opb = s.opb := rfl
@[simp] theorem State.flagsDone_lena : (s.flagsDone).lena = s.lena := rfl
@[simp] theorem State.flagsDone_lenb : (s.flagsDone).lenb = s.lenb := rfl
@[simp] theorem State.flagsDone_a : (s.flagsDone).a = s.a := rfl
@[simp] theorem State.flagsDone_b : (s.flagsDone).b = s.b := rfl
@[simp] theorem State.flagsDone_sb : (s.flagsDone).sb = s.sb := rfl
@[simp] theorem State.flagsDone_c : (s.flagsDone).c = s.c := rfl
@[simp] theorem State.flagsDone_res : (s.flagsDone).res = s.res := rfl
@[simp] theorem State.flagsDone_busy : (s.flagsDone).busy = false := rfl
@[simp] theorem State.flagsDone_done : (s.flagsDone).done = true := rfl
@[simp] theorem State.flagsDone_err : (s.flagsDone).err = s.err := rfl
@[simp] theorem State.flagsDone_seq : (s.flagsDone).seq = s.seq := rfl
@[simp] theorem State.flagsDone_turns : (s.flagsDone).turns = s.turns := rfl
@[simp] theorem State.flagsDone_reply : (s.flagsDone).reply = s.reply := rfl
@[simp] theorem State.flagsDone_draws : (s.flagsDone).draws = s.draws := rfl
@[simp] theorem State.flagsDone_wasReset : (s.flagsDone).wasReset = s.wasReset := rfl

/-! ### `State.flagsError` -/

@[simp] theorem State.flagsError_opa : (s.flagsError).opa = s.opa := rfl
@[simp] theorem State.flagsError_opb : (s.flagsError).opb = s.opb := rfl
@[simp] theorem State.flagsError_lena : (s.flagsError).lena = s.lena := rfl
@[simp] theorem State.flagsError_lenb : (s.flagsError).lenb = s.lenb := rfl
@[simp] theorem State.flagsError_a : (s.flagsError).a = s.a := rfl
@[simp] theorem State.flagsError_b : (s.flagsError).b = s.b := rfl
@[simp] theorem State.flagsError_sb : (s.flagsError).sb = s.sb := rfl
@[simp] theorem State.flagsError_c : (s.flagsError).c = s.c := rfl
@[simp] theorem State.flagsError_res : (s.flagsError).res = s.res := rfl
@[simp] theorem State.flagsError_busy : (s.flagsError).busy = false := rfl
@[simp] theorem State.flagsError_done : (s.flagsError).done = true := rfl
@[simp] theorem State.flagsError_err : (s.flagsError).err = true := rfl
@[simp] theorem State.flagsError_seq : (s.flagsError).seq = s.seq := rfl
@[simp] theorem State.flagsError_turns : (s.flagsError).turns = s.turns := rfl
@[simp] theorem State.flagsError_reply : (s.flagsError).reply = s.reply := rfl
@[simp] theorem State.flagsError_draws : (s.flagsError).draws = s.draws := rfl
@[simp] theorem State.flagsError_wasReset : (s.flagsError).wasReset = s.wasReset := rfl

/-! ### `State.flagsClear` -/

@[simp] theorem State.flagsClear_opa : (s.flagsClear).opa = s.opa := rfl
@[simp] theorem State.flagsClear_opb : (s.flagsClear).opb = s.opb := rfl
@[simp] theorem State.flagsClear_lena : (s.flagsClear).lena = s.lena := rfl
@[simp] theorem State.flagsClear_lenb : (s.flagsClear).lenb = s.lenb := rfl
@[simp] theorem State.flagsClear_a : (s.flagsClear).a = s.a := rfl
@[simp] theorem State.flagsClear_b : (s.flagsClear).b = s.b := rfl
@[simp] theorem State.flagsClear_sb : (s.flagsClear).sb = s.sb := rfl
@[simp] theorem State.flagsClear_c : (s.flagsClear).c = s.c := rfl
@[simp] theorem State.flagsClear_res : (s.flagsClear).res = s.res := rfl
@[simp] theorem State.flagsClear_busy : (s.flagsClear).busy = false := rfl
@[simp] theorem State.flagsClear_done : (s.flagsClear).done = false := rfl
@[simp] theorem State.flagsClear_err : (s.flagsClear).err = false := rfl
@[simp] theorem State.flagsClear_seq : (s.flagsClear).seq = s.seq := rfl
@[simp] theorem State.flagsClear_turns : (s.flagsClear).turns = s.turns := rfl
@[simp] theorem State.flagsClear_reply : (s.flagsClear).reply = s.reply := rfl
@[simp] theorem State.flagsClear_draws : (s.flagsClear).draws = s.draws := rfl
@[simp] theorem State.flagsClear_wasReset : (s.flagsClear).wasReset = s.wasReset := rfl

/-! ### `State.setReply` -/

@[simp] theorem State.setReply_opa (r : Reply) : (s.setReply r).opa = s.opa := rfl
@[simp] theorem State.setReply_opb (r : Reply) : (s.setReply r).opb = s.opb := rfl
@[simp] theorem State.setReply_lena (r : Reply) : (s.setReply r).lena = s.lena := rfl
@[simp] theorem State.setReply_lenb (r : Reply) : (s.setReply r).lenb = s.lenb := rfl
@[simp] theorem State.setReply_a (r : Reply) : (s.setReply r).a = s.a := rfl
@[simp] theorem State.setReply_b (r : Reply) : (s.setReply r).b = s.b := rfl
@[simp] theorem State.setReply_sb (r : Reply) : (s.setReply r).sb = s.sb := rfl
@[simp] theorem State.setReply_c (r : Reply) : (s.setReply r).c = s.c := rfl
@[simp] theorem State.setReply_res (r : Reply) : (s.setReply r).res = s.res := rfl
@[simp] theorem State.setReply_busy (r : Reply) : (s.setReply r).busy = s.busy := rfl
@[simp] theorem State.setReply_done (r : Reply) : (s.setReply r).done = s.done := rfl
@[simp] theorem State.setReply_err (r : Reply) : (s.setReply r).err = s.err := rfl
@[simp] theorem State.setReply_seq (r : Reply) : (s.setReply r).seq = s.seq := rfl
@[simp] theorem State.setReply_turns (r : Reply) : (s.setReply r).turns = s.turns := rfl
@[simp] theorem State.setReply_reply (r : Reply) : (s.setReply r).reply = some r := rfl
@[simp] theorem State.setReply_draws (r : Reply) : (s.setReply r).draws = s.draws := rfl
@[simp] theorem State.setReply_wasReset (r : Reply) : (s.setReply r).wasReset = s.wasReset := rfl

/-! ### `State.markReset` -/

@[simp] theorem State.markReset_opa : (s.markReset).opa = s.opa := rfl
@[simp] theorem State.markReset_opb : (s.markReset).opb = s.opb := rfl
@[simp] theorem State.markReset_lena : (s.markReset).lena = s.lena := rfl
@[simp] theorem State.markReset_lenb : (s.markReset).lenb = s.lenb := rfl
@[simp] theorem State.markReset_a : (s.markReset).a = s.a := rfl
@[simp] theorem State.markReset_b : (s.markReset).b = s.b := rfl
@[simp] theorem State.markReset_sb : (s.markReset).sb = s.sb := rfl
@[simp] theorem State.markReset_c : (s.markReset).c = s.c := rfl
@[simp] theorem State.markReset_res : (s.markReset).res = s.res := rfl
@[simp] theorem State.markReset_busy : (s.markReset).busy = s.busy := rfl
@[simp] theorem State.markReset_done : (s.markReset).done = s.done := rfl
@[simp] theorem State.markReset_err : (s.markReset).err = s.err := rfl
@[simp] theorem State.markReset_seq : (s.markReset).seq = s.seq := rfl
@[simp] theorem State.markReset_turns : (s.markReset).turns = s.turns := rfl
@[simp] theorem State.markReset_reply : (s.markReset).reply = s.reply := rfl
@[simp] theorem State.markReset_draws : (s.markReset).draws = s.draws := rfl
@[simp] theorem State.markReset_wasReset : (s.markReset).wasReset = true := rfl

/-! ### `advance` -/

@[simp] theorem advance_opa : (advance s).opa = s.opa := rfl
@[simp] theorem advance_opb : (advance s).opb = s.opb := rfl
@[simp] theorem advance_lena : (advance s).lena = s.lena := rfl
@[simp] theorem advance_lenb : (advance s).lenb = s.lenb := rfl
@[simp] theorem advance_a : (advance s).a = s.a := rfl
@[simp] theorem advance_b : (advance s).b = s.b := rfl
@[simp] theorem advance_sb : (advance s).sb = s.sb := rfl
@[simp] theorem advance_c : (advance s).c = s.c := rfl
@[simp] theorem advance_res : (advance s).res = s.res := rfl
@[simp] theorem advance_busy : (advance s).busy = s.busy := rfl
@[simp] theorem advance_done : (advance s).done = s.done := rfl
@[simp] theorem advance_err : (advance s).err = s.err := rfl
@[simp] theorem advance_seq : (advance s).seq = s.seq := rfl
@[simp] theorem advance_turns : (advance s).turns = s.turns.tail := rfl
@[simp] theorem advance_reply : (advance s).reply = s.reply := rfl
@[simp] theorem advance_draws : (advance s).draws = s.draws := rfl
@[simp] theorem advance_wasReset : (advance s).wasReset = s.wasReset := rfl

/-! ### `raise` -/

@[simp] theorem raise_opa (e : Exception) : (raise e s).opa = s.opa := by cases e; rfl
@[simp] theorem raise_opb (e : Exception) : (raise e s).opb = s.opb := by cases e; rfl
@[simp] theorem raise_lena (e : Exception) : (raise e s).lena = 0 := by cases e; rfl
@[simp] theorem raise_lenb (e : Exception) : (raise e s).lenb = 0 := by cases e; rfl
@[simp] theorem raise_a (e : Exception) : (raise e s).a = s.a := by cases e; rfl
@[simp] theorem raise_b (e : Exception) : (raise e s).b = s.b := by cases e; rfl
@[simp] theorem raise_sb (e : Exception) : (raise e s).sb = s.sb := by cases e; rfl
@[simp] theorem raise_c (e : Exception) : (raise e s).c = s.c := by cases e; rfl
@[simp] theorem raise_res (e : Exception) : (raise e s).res = s.res := by cases e; rfl
@[simp] theorem raise_busy (e : Exception) : (raise e s).busy = false := by cases e; rfl
@[simp] theorem raise_done (e : Exception) : (raise e s).done = true := by cases e; rfl
@[simp] theorem raise_err (e : Exception) : (raise e s).err = true := by cases e; rfl
@[simp] theorem raise_seq (e : Exception) : (raise e s).seq = seqIdle := by cases e; rfl
@[simp] theorem raise_turns (e : Exception) : (raise e s).turns = s.turns := by cases e; rfl
@[simp] theorem raise_reply (e : Exception) : (raise e s).reply = s.reply := by cases e; rfl
@[simp] theorem raise_draws (e : Exception) : (raise e s).draws = s.draws := by cases e; rfl
@[simp] theorem raise_wasReset (e : Exception) : (raise e s).wasReset = s.wasReset := by cases e; rfl

/-! ### `resetControl` -/

@[simp] theorem resetControl_opa : (resetControl s).opa = s.opa := rfl
@[simp] theorem resetControl_opb : (resetControl s).opb = s.opb := rfl
@[simp] theorem resetControl_lena : (resetControl s).lena = 0 := rfl
@[simp] theorem resetControl_lenb : (resetControl s).lenb = 0 := rfl
@[simp] theorem resetControl_a : (resetControl s).a = s.a := rfl
@[simp] theorem resetControl_b : (resetControl s).b = s.b := rfl
@[simp] theorem resetControl_sb : (resetControl s).sb = s.sb := rfl
@[simp] theorem resetControl_c : (resetControl s).c = s.c := rfl
@[simp] theorem resetControl_res : (resetControl s).res = s.res := rfl
@[simp] theorem resetControl_busy : (resetControl s).busy = false := rfl
@[simp] theorem resetControl_done : (resetControl s).done = false := rfl
@[simp] theorem resetControl_err : (resetControl s).err = false := rfl
@[simp] theorem resetControl_seq : (resetControl s).seq = seqIdle := rfl
@[simp] theorem resetControl_turns : (resetControl s).turns = s.turns := rfl
@[simp] theorem resetControl_reply : (resetControl s).reply = s.reply := rfl
@[simp] theorem resetControl_draws : (resetControl s).draws = s.draws := rfl
@[simp] theorem resetControl_wasReset : (resetControl s).wasReset = s.wasReset := rfl

/-! ### `scrambleData` -/

@[simp] theorem scrambleData_lena : (scrambleData s).lena = s.lena := by unfold scrambleData; rfl
@[simp] theorem scrambleData_lenb : (scrambleData s).lenb = s.lenb := by unfold scrambleData; rfl
@[simp] theorem scrambleData_busy : (scrambleData s).busy = s.busy := by unfold scrambleData; rfl
@[simp] theorem scrambleData_done : (scrambleData s).done = s.done := by unfold scrambleData; rfl
@[simp] theorem scrambleData_err : (scrambleData s).err = s.err := by unfold scrambleData; rfl
@[simp] theorem scrambleData_seq : (scrambleData s).seq = s.seq := by unfold scrambleData; rfl
@[simp] theorem scrambleData_turns : (scrambleData s).turns = s.turns := by unfold scrambleData; rfl
@[simp] theorem scrambleData_reply : (scrambleData s).reply = s.reply := by unfold scrambleData; rfl
@[simp] theorem scrambleData_draws : (scrambleData s).draws = s.draws + 117 := by unfold scrambleData; rfl
@[simp] theorem scrambleData_wasReset : (scrambleData s).wasReset = s.wasReset := by unfold scrambleData; rfl

/-! ### `State.setLen` -/

@[simp] theorem State.setLen_opa (p : Operand) (n : BitVec 6) : (s.setLen p n).opa = s.opa := by
  cases p <;> rfl
@[simp] theorem State.setLen_opb (p : Operand) (n : BitVec 6) : (s.setLen p n).opb = s.opb := by
  cases p <;> rfl
@[simp] theorem State.setLen_a (p : Operand) (n : BitVec 6) : (s.setLen p n).a = s.a := by
  cases p <;> rfl
@[simp] theorem State.setLen_b (p : Operand) (n : BitVec 6) : (s.setLen p n).b = s.b := by
  cases p <;> rfl
@[simp] theorem State.setLen_sb (p : Operand) (n : BitVec 6) : (s.setLen p n).sb = s.sb := by
  cases p <;> rfl
@[simp] theorem State.setLen_c (p : Operand) (n : BitVec 6) : (s.setLen p n).c = s.c := by
  cases p <;> rfl
@[simp] theorem State.setLen_res (p : Operand) (n : BitVec 6) : (s.setLen p n).res = s.res := by
  cases p <;> rfl
@[simp] theorem State.setLen_busy (p : Operand) (n : BitVec 6) : (s.setLen p n).busy = s.busy := by
  cases p <;> rfl
@[simp] theorem State.setLen_done (p : Operand) (n : BitVec 6) : (s.setLen p n).done = s.done := by
  cases p <;> rfl
@[simp] theorem State.setLen_err (p : Operand) (n : BitVec 6) : (s.setLen p n).err = s.err := by
  cases p <;> rfl
@[simp] theorem State.setLen_seq (p : Operand) (n : BitVec 6) : (s.setLen p n).seq = s.seq := by
  cases p <;> rfl
@[simp] theorem State.setLen_turns (p : Operand) (n : BitVec 6) : (s.setLen p n).turns = s.turns := by
  cases p <;> rfl
@[simp] theorem State.setLen_reply (p : Operand) (n : BitVec 6) : (s.setLen p n).reply = s.reply := by
  cases p <;> rfl
@[simp] theorem State.setLen_draws (p : Operand) (n : BitVec 6) : (s.setLen p n).draws = s.draws := by
  cases p <;> rfl
@[simp] theorem State.setLen_wasReset (p : Operand) (n : BitVec 6) : (s.setLen p n).wasReset = s.wasReset := by
  cases p <;> rfl
@[simp] theorem State.setLen_len_same (p : Operand) (n : BitVec 6) : (s.setLen p n).len p = n := by
  cases p <;> rfl
@[simp] theorem State.setLen_a_lena (n : BitVec 6) : (s.setLen .a n).lena = n := rfl
@[simp] theorem State.setLen_a_lenb (n : BitVec 6) : (s.setLen .a n).lenb = s.lenb := rfl
@[simp] theorem State.setLen_b_lena (n : BitVec 6) : (s.setLen .b n).lena = s.lena := rfl
@[simp] theorem State.setLen_b_lenb (n : BitVec 6) : (s.setLen .b n).lenb = n := rfl
theorem State.setLen_len_other {p q : Operand} (n : BitVec 6) (h : q ≠ p) :
    (s.setLen p n).len q = s.len q := by
  cases p <;> cases q <;> first | exact absurd rfl h | rfl

/-! ### `State.setBuffer` -/

@[simp] theorem State.setBuffer_lena (sp : Space) (x : Buf32) : (s.setBuffer sp x).lena = s.lena := by
  cases sp <;> rfl
@[simp] theorem State.setBuffer_lenb (sp : Space) (x : Buf32) : (s.setBuffer sp x).lenb = s.lenb := by
  cases sp <;> rfl
@[simp] theorem State.setBuffer_a (sp : Space) (x : Buf32) : (s.setBuffer sp x).a = s.a := by
  cases sp <;> rfl
@[simp] theorem State.setBuffer_b (sp : Space) (x : Buf32) : (s.setBuffer sp x).b = s.b := by
  cases sp <;> rfl
@[simp] theorem State.setBuffer_sb (sp : Space) (x : Buf32) : (s.setBuffer sp x).sb = s.sb := by
  cases sp <;> rfl
@[simp] theorem State.setBuffer_c (sp : Space) (x : Buf32) : (s.setBuffer sp x).c = s.c := by
  cases sp <;> rfl
@[simp] theorem State.setBuffer_busy (sp : Space) (x : Buf32) : (s.setBuffer sp x).busy = s.busy := by
  cases sp <;> rfl
@[simp] theorem State.setBuffer_done (sp : Space) (x : Buf32) : (s.setBuffer sp x).done = s.done := by
  cases sp <;> rfl
@[simp] theorem State.setBuffer_err (sp : Space) (x : Buf32) : (s.setBuffer sp x).err = s.err := by
  cases sp <;> rfl
@[simp] theorem State.setBuffer_seq (sp : Space) (x : Buf32) : (s.setBuffer sp x).seq = s.seq := by
  cases sp <;> rfl
@[simp] theorem State.setBuffer_turns (sp : Space) (x : Buf32) : (s.setBuffer sp x).turns = s.turns := by
  cases sp <;> rfl
@[simp] theorem State.setBuffer_reply (sp : Space) (x : Buf32) : (s.setBuffer sp x).reply = s.reply := by
  cases sp <;> rfl
@[simp] theorem State.setBuffer_draws (sp : Space) (x : Buf32) : (s.setBuffer sp x).draws = s.draws := by
  cases sp <;> rfl
@[simp] theorem State.setBuffer_wasReset (sp : Space) (x : Buf32) : (s.setBuffer sp x).wasReset = s.wasReset := by
  cases sp <;> rfl
@[simp] theorem State.setBuffer_opa_opa (x : Buf32) : (s.setBuffer .opa x).opa = x := rfl
@[simp] theorem State.setBuffer_opa_opb (x : Buf32) : (s.setBuffer .opa x).opb = s.opb := rfl
@[simp] theorem State.setBuffer_opa_res (x : Buf32) : (s.setBuffer .opa x).res = s.res := rfl
@[simp] theorem State.setBuffer_opb_opa (x : Buf32) : (s.setBuffer .opb x).opa = s.opa := rfl
@[simp] theorem State.setBuffer_opb_opb (x : Buf32) : (s.setBuffer .opb x).opb = x := rfl
@[simp] theorem State.setBuffer_opb_res (x : Buf32) : (s.setBuffer .opb x).res = s.res := rfl
@[simp] theorem State.setBuffer_res_opa (x : Buf32) : (s.setBuffer .res x).opa = s.opa := rfl
@[simp] theorem State.setBuffer_res_opb (x : Buf32) : (s.setBuffer .res x).opb = s.opb := rfl
@[simp] theorem State.setBuffer_res_res (x : Buf32) : (s.setBuffer .res x).res = x := rfl
@[simp] theorem State.setBuffer_buffer_same (sp : Space) (x : Buf32) :
    (s.setBuffer sp x).buffer sp = x := by
  cases sp <;> rfl
theorem State.setBuffer_buffer_other {sp q : Space} (x : Buf32) (h : q ≠ sp) :
    (s.setBuffer sp x).buffer q = s.buffer q := by
  cases sp <;> cases q <;> first | exact absurd rfl h | rfl

end Sys2Proof.Machine
end

