-- ==== Sys2Proof/Laws/Memory.lean ====
section
/-! SUPPORT. The byte buffers and what appending a byte does to them. -/

namespace Sys2Proof.Machine

/-- A byte written is the byte read. -/
@[simp] theorem memRead_memWrite_same (s : State) (sp : Space) (n : Fin 32) (v : Byte) :
    memRead (memWrite s sp n v) sp n = v := by
  simp [memRead, memWrite]

/-- A write leaves every other byte of every space as it was. -/
theorem memRead_memWrite_other (s : State) {sp q : Space} {n m : Fin 32} (v : Byte)
    (h : q ≠ sp ∨ m ≠ n) : memRead (memWrite s sp n v) q m = memRead s q m := by
  by_cases hq : q = sp
  · subst hq
    have hm : n.val ≠ m.val := fun e => (h.resolve_left (fun c => c rfl)) (Fin.ext e.symm)
    simp [memRead, memWrite, Vector.getElem_set_ne, hm]
  · simp [memRead, memWrite, State.setBuffer_buffer_other, hq]

/-- A store to an operand touches that operand's buffer alone: no counter, flag or word. -/
theorem storeOperand_eq (s : State) (o : Operand) (v : Byte) :
    ∃ x, storeOperand s o v = s.setBuffer (operandSpace o) x := by
  unfold storeOperand
  split
  · exact ⟨_, rfl⟩
  · exact ⟨s.buffer (operandSpace o), by cases o <;> rfl⟩

/-- The byte lands at the counter's index. -/
theorem memRead_storeOperand_same (s : State) (o : Operand) (v : Byte) (n : Fin 32)
    (h : (s.len o).toNat = n.val) : memRead (storeOperand s o v) (operandSpace o) n = v := by
  have hlt : (s.len o).toNat < 32 := h ▸ n.isLt
  have hn : n = ⟨(s.len o).toNat, hlt⟩ := Fin.ext h.symm
  subst hn
  simp [storeOperand, hlt]

/-- Every byte elsewhere is as it was, the 33rd byte and later ones being stored nowhere. -/
theorem memRead_storeOperand_other (s : State) (o : Operand) (v : Byte) (sp : Space) (n : Fin 32)
    (h : sp ≠ operandSpace o ∨ n.val ≠ (s.len o).toNat) :
    memRead (storeOperand s o v) sp n = memRead s sp n := by
  unfold storeOperand
  split
  · exact memRead_memWrite_other s v (h.imp_right fun c e => c (congrArg Fin.val e))
  · rfl

/-- Writing a counter changes no byte. -/
@[simp] theorem memRead_setLen (s : State) (o : Operand) (n : BitVec 6) (sp : Space) (m : Fin 32) :
    memRead (s.setLen o n) sp m = memRead s sp m := by
  cases o <;> cases sp <;> rfl

/-- A counter stays in 0..33 (R27). -/
theorem bumpLen_le {n : BitVec 6} (h : n.toNat ≤ 33) : (bumpLen n).toNat ≤ 33 := by
  unfold bumpLen
  split
  · rw [BitVec.toNat_add]
    have : (1 : BitVec 6).toNat = 1 := rfl
    omega
  · exact h

end Sys2Proof.Machine
end

