-- ==== Sys2Proof/Laws/Exec.lean ====
section
/-! SUPPORT. What each operation answers, as one equation: the proofs cite these and unfold no
meaning. -/

namespace Sys2Proof.Machine

variable (s : State)

@[simp] theorem exec_wait : exec .wait s = .next s := rfl

@[simp] theorem exec_chk :
    exec .chk s =
      .next (if lengthsOk s then s.setSeq seqPackA else raise .invalidInputLength s) := rfl

@[simp] theorem exec_packa :
    exec .packa s = .next ((s.setA (pack s.opa)).setSeq seqPackB) := rfl

@[simp] theorem exec_packb :
    exec .packb s = .next ((s.setB (pack s.opb)).setSeq seqCinit) := rfl

@[simp] theorem exec_cinit :
    exec .cinit s = .next (((s.setC zeroWords).setSb (initShift s.b)).setSeq seqComb) := rfl

@[simp] theorem exec_fold (k : Fin 64) (j : Fin 4) :
    exec (.fold k j) s =
      .next ((s.setC (foldWords s.c s.sb (foldMask s.a[j] k) j)).setSeq (seqAfterFold k j)) := rfl

@[simp] theorem exec_shl1 (k : Fin 64) :
    exec (.shl1 k) s = .next ((s.setSb (shl1Words s.sb)).setSeq (seqAfterShl1 k)) := rfl

@[simp] theorem exec_rfold (ss : Fin 4) :
    exec (.rfold ss) s = .next ((s.setC (rfoldWords s.c ss)).setSeq (seqAfterRfold ss)) := rfl

@[simp] theorem exec_unpack :
    exec .unpack s = .next ((s.setBuffer .res (unpack (lowWords s.c))).setSeq seqFin) := rfl

@[simp] theorem exec_fin : exec .fin s = .next ((s.flagsDone.clearLens).setSeq seqIdle) := rfl

@[simp] theorem exec_reset :
    exec .reset s = .next (scrambleData (resetControl s)).markReset := rfl

@[simp] theorem exec_start :
    exec .start s =
      if s.busy then .refused .startWhileBusy else .next (s.flagsBusy.setSeq seqChk) := rfl

@[simp] theorem exec_opwrA (v : Byte) :
    exec (.opwrA v) s = if s.busy then .refused .opwrWhileBusy else .next (appendByte s .a v) := rfl

@[simp] theorem exec_opwrB (v : Byte) :
    exec (.opwrB v) s = if s.busy then .refused .opwrWhileBusy else .next (appendByte s .b v) := rfl

@[simp] theorem exec_hnop : exec .hnop s = .next s := rfl

@[simp] theorem exec_resrd (n : Fin 32) :
    exec (.resrd n) s =
      if s.resValid then .next (s.setReply (.byte (memRead s .res n)))
      else .refused .resultNotValid := rfl

@[simp] theorem exec_statrd : exec .statrd s = .next (s.setReply s.status) := rfl

/-- No operation faults: the only fault is the step's, on an illegal sequencer word. -/
theorem exec_not_fault (i : Instr) (f : Fault) : exec i s ≠ .fault f := by
  cases i <;> simp <;> split <;> simp

/-- Appending a byte changes no flag, no word register and no sequencer word. -/
theorem appendByte_eq (o : Operand) (v : Byte) :
    ∃ x, appendByte s o v =
      (s.setBuffer (operandSpace o) x).setLen o (bumpLen (s.len o)) := by
  obtain ⟨x, hx⟩ := storeOperand_eq s o v
  exact ⟨x, by rw [appendByte, hx]⟩

end Sys2Proof.Machine
end

