-- ==== Sys2Proof/Laws/Operands.lean ====
section
/-! SUPPORT. What the word arithmetic yields, element by element and bit by bit. -/

namespace Sys2Proof.Machine

/-! ## Register files, element by element -/

@[simp] theorem getElem_lowWords (p : W8) (i : Nat) (h : i < 4) : (lowWords p)[i] = p[i] := by
  simp [lowWords]

@[simp] theorem getElem_foldWords (p : W8) (sb : W5) (m : Word) (j : Fin 4) (n : Nat) (h : n < 8) :
    (foldWords p sb m j)[n] = p[n] ^^^ foldTerm sb m j ⟨n, h⟩ := by
  simp [foldWords]

@[simp] theorem getElem_rfoldWords (p : W8) (ss : Fin 4) (n : Nat) (h : n < 8) :
    (rfoldWords p ss)[n] = p[n] ^^^ rfoldTerm p[ss.val + 4] ss ⟨n, h⟩ := by
  simp [rfoldWords]

@[simp] theorem getElem_shl1Words (old : W5) (n : Nat) (h : n < 5) :
    (shl1Words old)[n] = shl1Word old ⟨n, h⟩ := by
  simp [shl1Words]

@[simp] theorem getElem_pack (x : Buf32) (n : Nat) (h : n < 4) :
    (pack x)[n] = packWord x ⟨n, h⟩ := by
  simp [pack]

@[simp] theorem getElem_unpack (v : W4) (n : Nat) (h : n < 32) :
    (unpack v)[n] = unpackByte v ⟨n, h⟩ := by
  simp [unpack]

@[simp] theorem getElem_split4 (x : BitVec 256) (n : Nat) (h : n < 4) :
    (split4 x)[n] = x.extractLsb' (64 * n) 64 := by
  simp [split4]

@[simp] theorem getElem_split8 (x : BitVec 512) (n : Nat) (h : n < 8) :
    (split8 x)[n] = x.extractLsb' (64 * n) 64 := by
  simp [split8]

@[simp] theorem getElem_zeroWords (n : Nat) (h : n < 8) : zeroWords[n] = 0 := by
  simp [zeroWords]

/-- The low four words of a fresh shift buffer are `B`'s (R101). -/
theorem getElem_initShift_low (b : W4) (n : Nat) (h : n < 4) : (initShift b)[n] = b[n] := by
  simp [initShift, h]

/-- Word 4 of a fresh shift buffer is 0 (R101). -/
theorem getElem_initShift_top (b : W4) : (initShift b)[4] = 0 := by
  simp [initShift]

/-- Inside its window a fold takes the masked word of the shift buffer (R102). -/
theorem foldTerm_inside (sb : W5) (m : Word) (j : Fin 4) (i : Fin 5) :
    foldTerm sb m j ⟨j.val + i.val, by omega⟩ = sb[i] &&& m := by
  have h : j.val ≤ j.val + i.val ∧ j.val + i.val ≤ j.val + 4 := by omega
  simp [foldTerm, h]

/-- Outside its window a fold takes nothing (R102). -/
theorem foldTerm_outside (sb : W5) (m : Word) (j : Fin 4) (n : Fin 8)
    (h : n.val < j.val ∨ j.val + 4 < n.val) : foldTerm sb m j n = 0 := by
  have h' : ¬(j.val ≤ n.val ∧ n.val ≤ j.val + 4) := by omega
  simp only [foldTerm, h', dite_false]

/-- The low terms go to word `i - 4` (R121). -/
theorem rfoldTerm_low (t : Word) (ss : Fin 4) (h : ss.val < 8) :
    rfoldTerm t ss ⟨ss.val, h⟩ = lowTerms t := by
  simp [rfoldTerm]

/-- The high terms go to word `i - 3` (R121). -/
theorem rfoldTerm_high (t : Word) (ss : Fin 4) (h : ss.val + 1 < 8) :
    rfoldTerm t ss ⟨ss.val + 1, h⟩ = highTerms t := by
  simp [rfoldTerm]

/-- Every other word takes nothing, `C[i]` among them (R122). -/
theorem rfoldTerm_other (t : Word) (ss : Fin 4) (n : Fin 8) (h : n.val ≠ ss.val)
    (h' : n.val ≠ ss.val + 1) : rfoldTerm t ss n = 0 := by
  simp [rfoldTerm, h, h']

/-! ## The mask -/

/-- The mask is all ones or all zeros, as the bit is 1 or 0 (R102). -/
theorem foldMask_eq (x : Word) (k : Fin 64) :
    foldMask x k = if x.getLsbD k then BitVec.allOnes 64 else 0 := by
  have h : extractBit x k = if x.getLsbD k then 1 else 0 := by
    apply BitVec.eq_of_getLsbD_eq
    intro i hi
    simp only [extractBit, BitVec.getLsbD_and, BitVec.getLsbD_ushiftRight]
    cases hk : x.getLsbD k.val <;> rcases i with _ | i
    · simpa using hk
    · simp [BitVec.getLsbD_one]
    · simpa using hk
    · simp [BitVec.getLsbD_one]
  unfold foldMask neg64
  rw [h]
  split <;> rfl

/-! ## Values, bit by bit -/

/-- The lowest 64 bits of an appended word come from that word, the rest from above it. -/
theorem getLsbD_append_word {w : Nat} (x : BitVec w) (y : Word) (m : Nat) :
    (x ++ y).getLsbD (64 + m) = x.getLsbD m := by
  rw [BitVec.getLsbD_append, if_neg (by omega), Nat.add_sub_cancel_left]

/-- Bit `r` of word `q` of four words is bit `64 q + r` of their value. -/
theorem getLsbD_val4_word (v : W4) (q r : Nat) (hq : q < 4) (hr : r < 64) :
    (val4 v).getLsbD (64 * q + r) = v[q].getLsbD r := by
  change BitVec.getLsbD (w := 64 + 64 + 64 + 64)
    (v[3] ++ v[2] ++ v[1] ++ v[0]) _ = _
  interval_cases q
  · rw [Nat.mul_zero, Nat.zero_add, BitVec.getLsbD_append, if_pos hr]
  · rw [show 64 * 1 + r = 64 + r by omega]
    simp only [getLsbD_append_word]
    rw [BitVec.getLsbD_append, if_pos hr]
  · rw [show 64 * 2 + r = 64 + (64 + r) by omega]
    simp only [getLsbD_append_word]
    rw [BitVec.getLsbD_append, if_pos hr]
  · rw [show 64 * 3 + r = 64 + (64 + (64 + r)) by omega]; simp only [getLsbD_append_word]

/-- Bit `n` of four words as one value is bit `n mod 64` of word `n div 64` (R52). -/
theorem getLsbD_val4 (v : W4) (n : Nat) (h : n < 256) :
    (val4 v).getLsbD n = (v[n / 64]'(by omega)).getLsbD (n % 64) := by
  rw [← getLsbD_val4_word v (n / 64) (n % 64) (by omega) (by omega), Nat.div_add_mod]

/-- Bit `r` of word `q` of five words is bit `64 q + r` of their value. -/
theorem getLsbD_val5_word (v : W5) (q r : Nat) (hq : q < 5) (hr : r < 64) :
    (val5 v).getLsbD (64 * q + r) = v[q].getLsbD r := by
  change BitVec.getLsbD (w := 64 + 64 + 64 + 64 + 64)
    (v[4] ++ v[3] ++ v[2] ++ v[1] ++ v[0]) _ = _
  interval_cases q
  · rw [Nat.mul_zero, Nat.zero_add, BitVec.getLsbD_append, if_pos hr]
  · rw [show 64 * 1 + r = 64 + r by omega]
    simp only [getLsbD_append_word]
    rw [BitVec.getLsbD_append, if_pos hr]
  · rw [show 64 * 2 + r = 64 + (64 + r) by omega]
    simp only [getLsbD_append_word]
    rw [BitVec.getLsbD_append, if_pos hr]
  · rw [show 64 * 3 + r = 64 + (64 + (64 + r)) by omega]
    simp only [getLsbD_append_word]
    rw [BitVec.getLsbD_append, if_pos hr]
  · rw [show 64 * 4 + r = 64 + (64 + (64 + (64 + r))) by omega]; simp only [getLsbD_append_word]

/-- Bit `n` of five words as one value is bit `n mod 64` of word `n div 64` (R52). -/
theorem getLsbD_val5 (v : W5) (n : Nat) (h : n < 320) :
    (val5 v).getLsbD n = (v[n / 64]'(by omega)).getLsbD (n % 64) := by
  rw [← getLsbD_val5_word v (n / 64) (n % 64) (by omega) (by omega), Nat.div_add_mod]

/-- Bit `r` of word `q` of eight words is bit `64 q + r` of their value. -/
theorem getLsbD_val8_word (v : W8) (q r : Nat) (hq : q < 8) (hr : r < 64) :
    (val8 v).getLsbD (64 * q + r) = v[q].getLsbD r := by
  change BitVec.getLsbD (w := 64 + 64 + 64 + 64 + 64 + 64 + 64 + 64)
    (v[7] ++ v[6] ++ v[5] ++ v[4] ++ v[3] ++ v[2] ++ v[1] ++ v[0]) _ = _
  interval_cases q
  · rw [Nat.mul_zero, Nat.zero_add, BitVec.getLsbD_append, if_pos hr]
  · rw [show 64 * 1 + r = 64 + r by omega]
    simp only [getLsbD_append_word]
    rw [BitVec.getLsbD_append, if_pos hr]
  · rw [show 64 * 2 + r = 64 + (64 + r) by omega]
    simp only [getLsbD_append_word]
    rw [BitVec.getLsbD_append, if_pos hr]
  · rw [show 64 * 3 + r = 64 + (64 + (64 + r)) by omega]
    simp only [getLsbD_append_word]
    rw [BitVec.getLsbD_append, if_pos hr]
  · rw [show 64 * 4 + r = 64 + (64 + (64 + (64 + r))) by omega]
    simp only [getLsbD_append_word]
    rw [BitVec.getLsbD_append, if_pos hr]
  · rw [show 64 * 5 + r = 64 + (64 + (64 + (64 + (64 + r)))) by omega]
    simp only [getLsbD_append_word]
    rw [BitVec.getLsbD_append, if_pos hr]
  · rw [show 64 * 6 + r = 64 + (64 + (64 + (64 + (64 + (64 + r))))) by omega]
    simp only [getLsbD_append_word]
    rw [BitVec.getLsbD_append, if_pos hr]
  · rw [show 64 * 7 + r = 64 + (64 + (64 + (64 + (64 + (64 + (64 + r)))))) by omega]; simp only [getLsbD_append_word]

/-- Bit `n` of eight words as one value is bit `n mod 64` of word `n div 64` (R52). -/
theorem getLsbD_val8 (v : W8) (n : Nat) (h : n < 512) :
    (val8 v).getLsbD n = (v[n / 64]'(by omega)).getLsbD (n % 64) := by
  rw [← getLsbD_val8_word v (n / 64) (n % 64) (by omega) (by omega), Nat.div_add_mod]

/-! ## Two words of bits are equal when their bits are -/

/-- Values of four words decide the words. -/
theorem val4_injective {v w : W4} (h : val4 v = val4 w) : v = w := by
  apply Vector.ext
  intro i hi
  apply BitVec.eq_of_getLsbD_eq
  intro j hj
  rw [← getLsbD_val4_word v i j hi hj, ← getLsbD_val4_word w i j hi hj, h]

/-- Values of five words decide the words. -/
theorem val5_injective {v w : W5} (h : val5 v = val5 w) : v = w := by
  apply Vector.ext
  intro i hi
  apply BitVec.eq_of_getLsbD_eq
  intro j hj
  rw [← getLsbD_val5_word v i j hi hj, ← getLsbD_val5_word w i j hi hj, h]

/-- Values of eight words decide the words. -/
theorem val8_injective {v w : W8} (h : val8 v = val8 w) : v = w := by
  apply Vector.ext
  intro i hi
  apply BitVec.eq_of_getLsbD_eq
  intro j hj
  rw [← getLsbD_val8_word v i j hi hj, ← getLsbD_val8_word w i j hi hj, h]

/-- Splitting into words and reading as one value are inverse. -/
@[simp] theorem val4_split4 (x : BitVec 256) : val4 (split4 x) = x := by
  apply BitVec.eq_of_getLsbD_eq
  intro n hn
  rw [getLsbD_val4 _ _ hn, getElem_split4, BitVec.getLsbD_extractLsb']
  have : n % 64 < 64 := Nat.mod_lt _ (by decide)
  simp only [this, decide_true, Bool.true_and]
  congr 1
  omega

/-- Splitting into words and reading as one value are inverse. -/
@[simp] theorem val8_split8 (x : BitVec 512) : val8 (split8 x) = x := by
  apply BitVec.eq_of_getLsbD_eq
  intro n hn
  rw [getLsbD_val8 _ _ hn, getElem_split8, BitVec.getLsbD_extractLsb']
  have : n % 64 < 64 := Nat.mod_lt _ (by decide)
  simp only [this, decide_true, Bool.true_and]
  congr 1
  omega

@[simp] theorem split4_val4 (v : W4) : split4 (val4 v) = v := val4_injective (val4_split4 _)

@[simp] theorem split8_val8 (v : W8) : split8 (val8 v) = v := val8_injective (val8_split8 _)

end Sys2Proof.Machine
end

