-- ==== Sys2Proof/Laws/PerInstr.lean ====
section
/-! SUPPORT. A family of lemmas, one per constructor: the code of every operation is legal in its
format (spec/30_encoding.md R76, R79 against R80). -/

namespace Sys2Proof.Laws.EncodeLegal

/-- The code of this operation is well formed. -/
def Statement (i : Instr) : Prop := (encode i).wellFormed = true

theorem wait : Statement .wait := rfl

theorem chk : Statement .chk := rfl

theorem packa : Statement .packa := rfl

theorem packb : Statement .packb := rfl

theorem cinit : Statement .cinit := rfl

theorem fold (k : Fin 64) (j : Fin 4) : Statement (.fold k j) := by
  revert k j; unfold Statement; decide

theorem shl1 (k : Fin 64) : Statement (.shl1 k) := by
  revert k; unfold Statement; decide

theorem rfold (ss : Fin 4) : Statement (.rfold ss) := by
  revert ss; unfold Statement; decide

theorem unpack : Statement .unpack := rfl

theorem fin : Statement .fin := rfl

theorem reset : Statement .reset := rfl

theorem start : Statement .start := rfl

theorem opwrA (v : Byte) : Statement (.opwrA v) := by
  revert v; unfold Statement; decide

theorem opwrB (v : Byte) : Statement (.opwrB v) := by
  revert v; unfold Statement; decide

theorem hnop : Statement .hnop := rfl

theorem resrd (n : Fin 32) : Statement (.resrd n) := rfl

theorem statrd : Statement .statrd := rfl

end Sys2Proof.Laws.EncodeLegal
end

