-- ==== Sys2Proof/Laws/Step.lean ====
section
/-! SUPPORT. Everything a step can do, said once. -/

namespace Sys2Proof.Machine

/-- A step that answers a next state performed the operation of the turn's code on the state with
the turn taken off, and was allowed to. -/
theorem step_next {s t : State} (h : step s = .next t) :
    ∃ i, decode (issued s) = .ok i ∧ mayTake s = true ∧ exec i (advance s) = .next t := by
  unfold step at h
  split at h
  · rename_i hm
    split at h
    · rename_i i hi
      exact ⟨i, hi, hm, h⟩
    · rename_i r _
      cases r <;> simp [stopOn] at h
  · simp at h

/-- A faulting step is the sequencer's, on a word that no row matches. -/
theorem step_fault {s : State} {f : Fault} (h : step s = .fault f) :
    ∃ w, f = .illegalSeq w ∧ decode (issued s) = .error (.illegalSeq w) := by
  unfold step at h
  split at h
  · split at h
    · exact absurd h (exec_not_fault _ _ _)
    · rename_i r hr
      cases r with
      | illegalSeq w =>
        refine ⟨w, ?_, hr⟩
        simpa [stopOn] using h.symm
      | startAndOpwr => simp [stopOn] at h
  · simp at h

/-- The step of a turn whose code decodes. -/
theorem step_of_decode {s : State} {i : Instr} (hm : mayTake s = true)
    (hi : decode (issued s) = .ok i) : step s = exec i (advance s) := by
  simp [step, hm, hi]

/-- Once a `RESET` has been applied every turn may be taken. -/
@[simp] theorem mayTake_of_wasReset {s : State} (h : s.wasReset = true) : mayTake s = true := by
  simp [mayTake, h]

/-- With no turn listed the turn is the sequencer's. -/
theorem issued_of_nil {s : State} (h : s.turns = []) : issued s = .seq s.seq := by
  simp [issued, h]

/-- A listed sequencer's turn acts on `SEQ`. -/
theorem issued_of_sequencer {s : State} {rest : List Turn} (h : s.turns = .sequencer :: rest) :
    issued s = .seq s.seq := by
  simp [issued, h]

/-- A listed command is the code acted on. -/
theorem issued_of_hcmd {s : State} {w : BitVec 12} {rest : List Turn}
    (h : s.turns = .hcmd w :: rest) : issued s = .hcmd w := by
  simp [issued, h]

/-- A listed result read is the code acted on. -/
theorem issued_of_hrd {s : State} {n : BitVec 5} {rest : List Turn}
    (h : s.turns = .hrd n :: rest) : issued s = .hrd n := by
  simp [issued, h]

/-- A listed status read is the code acted on. -/
theorem issued_of_hstat {s : State} {rest : List Turn} (h : s.turns = .hstat :: rest) :
    issued s = .hstat := by
  simp [issued, h]

/-- A code placed in front is the code acted on. -/
@[simp] theorem issued_withCode (s : State) (c : Code) : issued (s.withCode c) = c := by
  cases c <;> rfl

/-- Taking the turn of a placed code gives back the state, with `SEQ` at the code if it is a
sequencer word. -/
theorem advance_withCode (s : State) (c : Code) :
    advance (s.withCode c) = match c with
      | .seq w => s.setSeq w
      | _ => s := by
  cases c <;> rfl

end Sys2Proof.Machine
end

