-- ==== Sys2Proof/Laws/Run.lean ====
section
/-! SUPPORT. Runs: one step at a time, and one run after another. -/

namespace Sys2Proof.Safety

open Sys2Proof.Machine

@[simp] theorem run_zero (s : State) : run 0 s = .next s := rfl

/-- A run of one more step is that step, then the run. -/
theorem run_succ (n : Nat) (s : State) :
    run (n + 1) s = match step s with
      | .next t => run n t
      | .fault f => .fault f
      | .refused r => .refused r := rfl

/-- The interface's run after a step that answers a next state, for any machine. -/
theorem core_run_next {M : Host.Core} (n : Nat) {s t : M.State} (h : M.step s = .next t) :
    M.run (n + 1) s = M.run n t := by
  simp [Host.Core.run, h]

/-- The interface's run stops at a fault. -/
theorem core_run_fault {M : Host.Core} (n : Nat) {s : M.State} {f : M.Fault}
    (h : M.step s = .fault f) : M.run (n + 1) s = .fault f := by
  simp [Host.Core.run, h]

/-- The interface's run stops at a refusal. -/
theorem core_run_refused {M : Host.Core} (n : Nat) {s : M.State} {r : M.Refusal}
    (h : M.step s = .refused r) : M.run (n + 1) s = .refused r := by
  simp [Host.Core.run, h]

/-- This run is the run of the host's interface. -/
theorem run_eq_core (n : Nat) (s : State) : run n s = Host.Core.run Sys2Proof.core n s := by
  induction n generalizing s with
  | zero => rfl
  | succ n ih =>
    rw [run_succ]
    cases hs : step s with
    | next t => exact (ih t).trans (core_run_next (M := Sys2Proof.core) n hs).symm
    | fault f => exact (core_run_fault (M := Sys2Proof.core) n hs).symm
    | refused r => exact (core_run_refused (M := Sys2Proof.core) n hs).symm

/-- A run of one more step begins with that step. -/
theorem run_succ_of_next {n : Nat} {s t : State} (h : step s = .next t) :
    run (n + 1) s = run n t := by
  rw [run_succ, h]

/-- A run can be cut in two. -/
theorem run_add_of_next {m n : Nat} {s t : State} (h : run m s = .next t) :
    run (m + n) s = run n t := by
  induction m generalizing s with
  | zero =>
    rw [run_zero] at h
    cases h
    rw [Nat.zero_add]
  | succ m ih =>
    rw [run_succ] at h
    cases hs : step s with
    | next u =>
      rw [hs] at h
      rw [Nat.add_right_comm, run_succ_of_next hs]
      exact ih h
    | fault f => rw [hs] at h; cases h
    | refused f => rw [hs] at h; cases h

end Sys2Proof.Safety
end

