-- ==== Sys2Proof/Tests/Slice0.lean ====
section
/-! SUPPORT. Tests. Words, values and vectors are those of spec/30_encoding.md (R76, R79, R80) and
spec/95_test_vectors.md (V<n>), written out from there. The last section shows, for each statement
with hypotheses, data that meet them. -/

namespace Sys2Proof.Tests

open Sys2Proof Sys2Proof.Machine Sys2Proof.Safety

/-! ## Well-formedness: each check of R80 refuses -/

theorem test_phase_unused : phaseUnused 0xA00 = true ∧ seqLegal 0xA00 = false := by decide
theorem test_idle_bad : idleBad 0x008 = true ∧ seqLegal 0x001 = false := by decide
theorem test_load_bad : loadBad 0x204 = true ∧ seqLegal 0x208 = false := by decide
theorem test_comb_bad : combBad 0x405 = true ∧ seqLegal 0x5FF = false := by decide
theorem test_red_bad : redBad 0x604 = true ∧ seqLegal 0x60B = false := by decide
theorem test_store_bad : storeBad 0x802 = true ∧ seqLegal 0x808 = false := by decide
theorem test_hcmd_bad : hcmdLegal 0x600 = false ∧ hcmdLegal 0xE00 = true := by decide
theorem test_legal : seqLegal 0x5FC = true ∧ seqLegal 0x603 = true := by decide

/-! ## Decoding: one word a row, its fields written out -/

theorem test_decode_wait : decode (.seq 0b000_000000_000) = .ok .wait := by decide
theorem test_decode_chk : decode (.seq 0b001_000000_000) = .ok .chk := by decide
theorem test_decode_packa : decode (.seq 0b001_000000_001) = .ok .packa := by decide
theorem test_decode_packb : decode (.seq 0b001_000000_010) = .ok .packb := by decide
theorem test_decode_cinit : decode (.seq 0b001_000000_011) = .ok .cinit := by decide
theorem test_decode_fold : decode (.seq 0b010_000010_001) = .ok (.fold 2 1) := by decide
theorem test_decode_shl1 : decode (.seq 0b010_111111_100) = .ok (.shl1 63) := by decide
theorem test_decode_rfold : decode (.seq 0b011_000000_010) = .ok (.rfold 2) := by decide
theorem test_decode_unpack : decode (.seq 0b100_000000_000) = .ok .unpack := by decide
theorem test_decode_fin : decode (.seq 0b100_000000_001) = .ok .fin := by decide
theorem test_decode_reset : decode (.hcmd 0b1_1_0_1_00000111) = .ok .reset := by decide
theorem test_decode_start : decode (.hcmd 0b0_1_0_1_00000001) = .ok .start := by decide
theorem test_decode_opwrA : decode (.hcmd 0b0_0_1_0_10100101) = .ok (.opwrA 0xA5) := by decide
theorem test_decode_opwrB : decode (.hcmd 0b0_0_1_1_00000101) = .ok (.opwrB 5) := by decide
theorem test_decode_hnop : decode (.hcmd 0b0_0_0_1_11111111) = .ok .hnop := by decide
theorem test_decode_resrd : decode (.hrd 0b10011) = .ok (.resrd 19) := by decide
theorem test_decode_statrd : decode .hstat = .ok .statrd := by decide
theorem test_decode_illegal : decode (.seq 0x204) = .error (.illegalSeq 0x204) ∧
    decode (.hcmd 0x600) = .error .startAndOpwr := by decide

/-- R76: the numeric values of the parametrised codes. -/
theorem test_encode_numbers : encode (.fold 63 3) = .seq 0x5FB ∧ encode (.shl1 63) = .seq 0x5FC ∧
    encode (.rfold 3) = .seq 0x603 ∧ encode (.opwrB 5) = .hcmd 0x305 := by decide

/-- Numbers of the opcode table: a number that is legal in both 12-bit formats is the sequencer's
(log entry 4). -/
theorem test_table_words : decodeTableWord 16 0x404 = some (.shl1 0) ∧
    decodeTableWord 16 0x2A5 = some (.opwrA 0xA5) ∧ decodeTableWord 8 31 = some (.resrd 31) ∧
    decodeTableWord 0 0 = some .statrd ∧ decodeTableWord 16 0x200 = some .chk ∧
    decodeTableWord 8 32 = none := by decide

/-! ## One step of each operation -/

/-- The next state of an operation, if there is one. -/
def after (i : Instr) (s : State) : Option State :=
  match exec i s with
  | .next t => some t
  | _ => none

/-- The next state of a step, if there is one. -/
def stepped (s : State) : Option State :=
  match step s with
  | .next t => some t
  | _ => none

/-- A state in the middle of a call, at a sequencer word. -/
def busyAt (w : BitVec 12) : State :=
  { State.reset with busy := true, lena := 32, lenb := 32, seq := w }

/-- The bytes 00, 01, ..., 1F: `SEQB` (section 2 of the vectors). -/
def seqB : Buf32 := Vector.ofFn fun i => BitVec.ofNat 8 i.val

/-- The shift buffer of V6 to V8. -/
def sbV6 : W5 := #v[0x1111111111111111, 0x2222222222222222, 0x3333333333333333,
  0x4444444444444444, 0x5555555555555555]

theorem test_wait : stepped State.reset = some State.reset := by decide

/-- V35: the nearest accepted input. -/
theorem test_chk_pass : (after .chk (busyAt 0x200)).map (fun t => (t.seq, t.err)) =
    some (0x201, false) := by decide

/-- V31: 33 bytes are too many. -/
theorem test_chk_long : (after .chk { busyAt 0x200 with lenb := 33 }).map
    (fun t => (t.status, t.lena, t.lenb, t.seq)) =
      some (.status false true true false, 0, 0, 0x000) := by decide

/-- V2. -/
theorem test_packa : (after .packa { busyAt 0x201 with opa := seqB }).map (fun t => (t.a, t.seq)) =
    some (#v[0x0706050403020100, 0x0F0E0D0C0B0A0908, 0x1716151413121110, 0x1F1E1D1C1B1A1918],
      0x202) := by decide

/-- V3b's single bit: byte 31 = 0x80 is bit 63 of word 3. -/
theorem test_packb : (after .packb { busyAt 0x202 with
    opb := (Vector.replicate 32 0).set 31 0x80 }).map (fun t => (t.b, t.seq)) =
      some (#v[0, 0, 0, 0x8000000000000000], 0x203) := by decide

/-- V4. -/
theorem test_cinit : (after .cinit { busyAt 0x203 with
    b := #v[5, 0, 0, 0], c := Vector.replicate 8 7, sb := Vector.replicate 5 9 }).map
      (fun t => (t.c, t.sb, t.seq)) =
        some (Vector.replicate 8 0, #v[5, 0, 0, 0, 0], 0x400) := by decide

/-- V7: highest position, word and destination. -/
theorem test_fold_high : (after (.fold 63 3) { busyAt 0x5FB with
    a := #v[0, 0, 0, 0x8000000000000000], sb := sbV6,
    c := Vector.replicate 8 0xF0F0F0F0F0F0F0F0 }).map (fun t => (t.c, t.seq)) =
      some (#v[0xF0F0F0F0F0F0F0F0, 0xF0F0F0F0F0F0F0F0, 0xF0F0F0F0F0F0F0F0, 0xE1E1E1E1E1E1E1E1,
        0xD2D2D2D2D2D2D2D2, 0xC3C3C3C3C3C3C3C3, 0xB4B4B4B4B4B4B4B4, 0xA5A5A5A5A5A5A5A5],
        0x5FC) := by decide

/-- V8: words outside the window keep their values. -/
theorem test_fold_window : (after (.fold 1 1) { busyAt 0x409 with
    a := #v[0, 2, 0, 0], sb := sbV6, c := #v[1, 2, 3, 4, 5, 6, 7, 8] }).map
      (fun t => (t.c, t.seq)) =
        some (#v[1, 0x1111111111111113, 0x2222222222222221, 0x3333333333333337,
          0x4444444444444441, 0x5555555555555553, 7, 8], 0x40A) := by decide

/-- V9: a carry across every word boundary. -/
theorem test_shl1 : (after (.shl1 0) { busyAt 0x404 with sb := #v[0x8000000000000001,
    0x8000000000000000, 1, 0xFFFFFFFFFFFFFFFF, 0x7FFFFFFFFFFFFFFF] }).map
      (fun t => (t.sb, t.seq)) =
        some (#v[2, 1, 3, 0xFFFFFFFFFFFFFFFE, 0xFFFFFFFFFFFFFFFF], 0x408) := by decide

/-- V10: the top bit is dropped, and after position 63 comes `RFOLD 7`. -/
theorem test_shl1_last : (after (.shl1 63) { busyAt 0x5FC with
    sb := #v[0, 0, 0, 0, 0x8000000000000000] }).map (fun t => (t.sb, t.seq)) =
      some (Vector.replicate 5 0, 0x603) := by decide

/-- V12a: the high terms of word 7 land in word 4, and word 7 stays. -/
theorem test_rfold_seven : (after (.rfold 3) { busyAt 0x603 with
    c := #v[0, 0, 0, 0, 0, 0, 0, 0xFFFFFFFFFFFFFFFF] }).map (fun t => (t.c, t.seq)) =
      some (#v[0, 0, 0, 0x3E3, 0x3E3, 0, 0, 0xFFFFFFFFFFFFFFFF], 0x602) := by decide

/-- V12. -/
theorem test_rfold_four : (after (.rfold 0) { busyAt 0x600 with
    c := #v[0, 0, 0, 0, 0x8000000000000000, 0, 0, 0] }).map (fun t => (t.c, t.seq)) =
      some (#v[0x8000000000000000, 0x212, 0, 0, 0x8000000000000000, 0, 0, 0], 0x800) := by decide

/-- V2 read backwards; `C[4..7]` have no part in it. -/
theorem test_unpack : (after .unpack { busyAt 0x800 with c := #v[0x0706050403020100,
    0x0F0E0D0C0B0A0908, 0x1716151413121110, 0x1F1E1D1C1B1A1918, 9, 9, 9, 9] }).map
      (fun t => (t.res, t.seq, t.done)) = some (seqB, 0x801, false) := by decide

/-- R146's example. -/
theorem test_fin : (after .fin (busyAt 0x801)).map (fun t => (t.status, t.lena, t.seq)) =
    some (.status false true false true, 0, 0x000) := by decide

/-- V39a: `RESET` overrides the other strobes, during a call. -/
theorem test_reset : (stepped { busyAt 0x409 with turns := [.hcmd 0xE00] }).map
    (fun t => (t.status, t.lena, t.lenb, t.seq)) =
      some (.status false false false false, 0, 0, 0x000) := by decide

/-- R142's example, after a call that failed. -/
theorem test_start : (after .start { State.reset with done := true, err := true }).map
    (fun t => (t.status, t.seq)) = some (.status true false false false, 0x200) := by decide

/-- V37. -/
theorem test_start_busy : (after .start (busyAt 0x400)) = none := by decide

/-- R141's example. -/
theorem test_opwrA : (after (.opwrA 3) State.reset).map (fun t => (t.opa[0], t.lena, t.lenb)) =
    some (3, 1, 0) := by decide

/-- V33: the 33rd byte is counted and not stored, and the counter stays at 33. -/
theorem test_opwrB_full : ((after (.opwrB 7) { State.reset with lenb := 32 }).map
    (fun t => (t.opb, t.lenb))) = some (Vector.replicate 32 0, 33) ∧
    ((after (.opwrB 7) { State.reset with lenb := 33 }).map (fun t => t.lenb)) = some 33 := by
  decide

theorem test_hnop : stepped { State.reset with turns := [.hcmd 0x0FF] } = some State.reset := by
  decide

/-- V38b. -/
theorem test_resrd : (after (.resrd 31) { State.reset with done := true, res := seqB }).map
    (fun t => t.reply) = some (some (.byte 0x1F)) := by decide

/-- V38a: a result older than a failed call is not readable. -/
theorem test_resrd_stale : after (.resrd 0) { State.reset with done := true, err := true } = none := by
  decide

theorem test_statrd : (after .statrd { State.reset with done := true }).map (fun t => t.reply) =
    some (some (.status false true false true)) := by decide

/-- V39 and R80 (a): the two stops of the step. -/
theorem test_stops : stepped { State.reset with turns := [.hcmd 0x600] } = none ∧
    stepped { State.reset with seq := 0x001 } = none := by decide

/-- The table's word for `PACKB`, run as the first operation after reset. -/
theorem test_first_word : stepped (State.reset.withFetchWord 16 0x202) =
    some { State.reset with seq := 0x203 } := by decide

/-! ## Data that meet the statements' hypotheses -/

/-- A host loading 32 bytes of 3 and of 5. -/
def loading : List Turn := loadTurns .a (List.replicate 32 3) ++ loadTurns .b (List.replicate 32 5)

/-- A host loading one byte too few of A. -/
def loadingShort : List Turn :=
  loadTurns .a (List.replicate 31 3) ++ loadTurns .b (List.replicate 32 5)

/-- A state in the comb phase whose registers hold what the invariants say: `A = 1`, `B = 5`, one
bit folded. -/
def inComb : State :=
  { busyAt 0x408 with
    opa := (Vector.replicate 32 0).set 0 1
    opb := (Vector.replicate 32 0).set 0 5
    a := #v[1, 0, 0, 0]
    b := #v[5, 0, 0, 0]
    sb := #v[10, 0, 0, 0, 0]
    c := #v[5, 0, 0, 0, 0, 0, 0, 0] }

theorem controlInv_idle (ts : List Turn) : ControlInv { State.reset with turns := ts } where
  busy_iff := by simp [State.reset, seqPhase, phIdle]
  not_busy_done := by simp [State.reset]
  err_done := by simp [State.reset]
  seq_legal := show seqLegal 0 = true by decide
  lena_le := by simp [State.reset]
  lenb_le := by simp [State.reset]
  lens_ok := by simp [State.reset]
  reset_seen := rfl

theorem controlInv_busyAt (w : BitVec 12) (h : seqLegal w = true) (hp : seqPhase w ≠ phIdle) :
    ControlInv (busyAt w) where
  busy_iff := ⟨fun _ => hp, fun _ => rfl⟩
  not_busy_done := by simp [busyAt, State.reset]
  err_done := by simp [busyAt, State.reset]
  seq_legal := h
  lena_le := by simp [busyAt]
  lenb_le := by simp [busyAt]
  lens_ok := fun _ _ => ⟨rfl, rfl⟩
  reset_seen := rfl

theorem controlInv_inComb : ControlInv inComb where
  busy_iff := by decide
  not_busy_done := by decide
  err_done := by decide
  seq_legal := by decide
  lena_le := by decide
  lenb_le := by decide
  lens_ok := fun _ _ => ⟨rfl, rfl⟩
  reset_seen := rfl

theorem shiftInv_inComb : ShiftInv inComb := fun _ _ => by decide +kernel

theorem combInv_inComb : CombInv inComb := fun _ _ => by decide +kernel

theorem callInv_inComb : CallInv inComb where
  a_packed := fun _ _ _ => by decide
  b_packed := fun _ _ _ _ => by decide
  shift := fun _ => shiftInv_inComb
  comb := fun _ => combInv_inComb
  product := fun _ h => absurd h (by decide)
  reducing := fun n _ h => absurd h (by revert n; decide)
  reduced := fun _ h => absurd h (by decide)
  unpacked := fun _ h => absurd h (by decide)

theorem witness_EncodeOfDecode : ∃ c i, decode c = .ok i := ⟨.hcmd 0x5FF, .start, by decide⟩

theorem witness_StepRunsDecoded :
    (∃ (s : State) (i : Instr), s.wasReset = true ∧ sequencersTurn s ∧
      decode (.seq s.seq) = .ok i) ∧
    (∃ (s : State) (w : BitVec 12) (rest : List Turn) (i : Instr),
      (s.wasReset = true ∨ w.getLsbD 11 = true) ∧ s.turns = .hcmd w :: rest ∧
      decode (.hcmd w) = .ok i) ∧
    (∃ (s : State) (n : Fin 32) (rest : List Turn), s.wasReset = true ∧
      s.turns = .hrd (BitVec.ofNat 5 n) :: rest) ∧
    (∃ (s : State) (rest : List Turn), s.wasReset = true ∧ s.turns = .hstat :: rest) :=
  ⟨⟨busyAt 0x5FC, .shl1 63, rfl, .inl rfl, by decide⟩,
   ⟨{ State.reset with turns := [.hcmd 0x400] }, 0x400, [], .start, .inl rfl, rfl, by decide⟩,
   ⟨{ State.reset with turns := [.hrd 31] }, 31, [], rfl, rfl⟩,
   ⟨{ State.reset with turns := [.hstat] }, [], rfl, rfl⟩⟩

/-- The second clause of `StepRunsDecoded` before the first `RESET`. -/
theorem witness_StepRunsDecoded_reset :
    ∃ (s : State) (w : BitVec 12) (i : Instr), s.wasReset = false ∧ w.getLsbD 11 = true ∧
      s.turns = [.hcmd w] ∧ decode (.hcmd w) = .ok i :=
  ⟨{ State.reset with wasReset := false, turns := [.hcmd 0xE00] }, 0xE00, .reset, rfl, by decide,
    rfl, by decide⟩

/-- Words of `C` below and above the window of a `FOLD`. -/
theorem witness_FoldXorsWindow :
    (∃ (j : Fin 4) (n : Fin 8), n.val < j.val) ∧ (∃ (j : Fin 4) (n : Fin 8), j.val + 4 < n.val) :=
  ⟨⟨1, 0, by decide⟩, ⟨2, 7, by decide⟩⟩

/-- Words of `C` that an `RFOLD` leaves alone. -/
theorem witness_RfoldFoldsWord :
    ∃ (ss : Fin 4) (n : Fin 8), n.val ≠ ss.val ∧ n.val ≠ ss.val + 1 :=
  ⟨3, 7, by decide, by decide⟩

theorem witness_FetchWordRunsNext :
    ∃ (s : State) (nbits w : Nat) (i : Instr), s.wasReset = true ∧
      decodeTableWord nbits w = some i :=
  ⟨State.reset, 16, 0x5FB, .fold 63 3, rfl, by decide⟩

theorem witness_IllegalCodesStop :
    (∃ s : State, s.wasReset = true ∧ sequencersTurn s ∧ seqLegal s.seq = false) ∧
    (∃ (s : State) (w : BitVec 12) (rest : List Turn), s.wasReset = true ∧
      s.turns = .hcmd w :: rest ∧ w.getLsbD 11 = false ∧ w.getLsbD 10 = true ∧
      w.getLsbD 9 = true) :=
  ⟨⟨busyAt 0xA00, rfl, .inl rfl, by decide⟩,
   ⟨{ State.reset with turns := [.hcmd 0x600] }, 0x600, [], rfl, rfl, by decide, by decide,
    by decide⟩⟩

theorem witness_BeforeResetOnlyReset :
    (∃ s : State, s.wasReset = false ∧ s.turns = []) ∧
    (∃ s : State, s.wasReset = false ∧ s.turns = [.hcmd 0x800]) :=
  ⟨⟨{ State.reset with wasReset := false }, rfl, rfl⟩,
   ⟨{ State.reset with wasReset := false, turns := [.hcmd 0x800] }, rfl, rfl⟩⟩

/-- The clauses of `ChkChecksLengths` at the boundaries of the accepted length. -/
theorem witness_ChkChecksLengths :
    (∃ s : State, s.lena = 32 ∧ s.lenb = 32) ∧
    (∃ s : State, s.lena = 31 ∧ ¬(s.lena = 32 ∧ s.lenb = 32)) ∧
    (∃ s : State, s.lenb = 33 ∧ ¬(s.lena = 32 ∧ s.lenb = 32)) :=
  ⟨⟨busyAt 0x200, rfl, rfl⟩, ⟨{ busyAt 0x200 with lena := 31 }, rfl, by decide⟩,
   ⟨{ busyAt 0x200 with lenb := 33 }, rfl, by decide⟩⟩

theorem witness_StartBeginsCall :
    (∃ s : State, s.busy = false) ∧ (∃ s : State, s.busy = true) :=
  ⟨⟨State.reset, rfl⟩, ⟨busyAt 0x200, rfl⟩⟩

/-- Both clauses of `OpwrAppendsByte`, and the first at the counter's boundaries. -/
theorem witness_OpwrAppendsByte :
    (∃ s : State, s.busy = false ∧ (s.len .a).toNat = (31 : Fin 32).val) ∧
    (∃ s : State, s.busy = false ∧ (s.len .b).toNat = 32) ∧
    (∃ s : State, s.busy = false ∧ (s.len .b).toNat = 33) ∧
    (∃ s : State, s.busy = true) :=
  ⟨⟨{ State.reset with lena := 31 }, rfl, rfl⟩, ⟨{ State.reset with lenb := 32 }, rfl, rfl⟩,
   ⟨{ State.reset with lenb := 33 }, rfl, rfl⟩, ⟨busyAt 0x200, rfl⟩⟩

theorem witness_ResrdReturnsResult :
    (∃ s : State, s.done = true ∧ s.err = false) ∧ (∃ s : State, s.done = false ∨ s.err = true) :=
  ⟨⟨{ State.reset with done := true }, rfl, rfl⟩, ⟨State.reset, .inl rfl⟩⟩

theorem witness_ModelFieldsKept :
    ∃ (i : Instr) (s t : State), exec i s = .next t ∧ i ≠ .reset ∧ (∀ n, i ≠ .resrd n) ∧
      i ≠ .statrd :=
  ⟨.start, State.reset, _, rfl, by decide, by decide, by decide⟩

theorem witness_StepKeepsControlInv :
    ∃ s t : State, ControlInv s ∧ step s = .next t :=
  ⟨busyAt 0x5FC, _, controlInv_busyAt _ (by decide) (by decide), rfl⟩

theorem witness_StepKeepsShiftInv : ∃ s t : State, ShiftInv s ∧ step s = .next t :=
  ⟨inComb, _, shiftInv_inComb, rfl⟩

theorem witness_StepKeepsCallInv :
    ∃ s t : State, ControlInv s ∧ CallInv s ∧ step s = .next t :=
  ⟨inComb, _, controlInv_inComb, callInv_inComb, rfl⟩

theorem witness_FlagsChangeOnlyAsListed :
    ∃ (s t : State) (i : Instr), decode (issued s) = .ok i ∧ step s = .next t ∧
      s.busy = true ∧ t.busy = false :=
  ⟨busyAt 0x801, _, .fin, by decide, rfl, rfl, rfl⟩

theorem witness_RegistersWrittenOnlyAsListed :
    ∃ (s t : State) (i : Instr), decode (issued s) = .ok i ∧ step s = .next t ∧ t.a ≠ s.a :=
  ⟨{ busyAt 0x201 with opa := seqB }, _, .packa, by decide, rfl, by decide⟩

theorem witness_ReachableStatusValues : ∃ s : State, ControlInv s :=
  ⟨busyAt 0x801, controlInv_busyAt _ (by decide) (by decide)⟩

theorem witness_SequencerFollowsTable :
    ∃ s : State, s.wasReset = true ∧ sequencersTurn s ∧ seqLegal s.seq = true :=
  ⟨busyAt 0x5FC, rfl, .inl rfl, by decide⟩

theorem witness_OnlyProtocolViolationsStop :
    (∃ s : State, ControlInv s ∧ s.turns = [.hcmd 0x600]) ∧
    (∃ s : State, ControlInv s ∧ s.turns = [.hrd 0] ∧ s.resValid = false) :=
  ⟨⟨_, controlInv_idle [.hcmd 0x600], rfl⟩, ⟨_, controlInv_idle [.hrd 0], rfl, rfl⟩⟩

theorem witness_CmulComputesProduct :
    ∃ s : State, s.wasReset = true ∧ s.turns = [] ∧ s.seq = 0x203 :=
  ⟨{ busyAt 0x203 with a := #v[3, 0, 0, 0], b := #v[5, 0, 0, 0] }, rfl, rfl, rfl⟩

theorem witness_RedcComputesRemainder :
    ∃ s : State, s.wasReset = true ∧ s.turns = [] ∧ s.seq = 0x603 :=
  ⟨{ busyAt 0x603 with c := #v[0, 0, 0, 0, 0, 0, 0, 1] }, rfl, rfl, rfl⟩

theorem witness_CallRunsHardwiredProgram :
    ∃ s : State, s.wasReset = true ∧ s.turns = [] ∧ s.seq = 0x200 ∧ s.lena = 32 ∧ s.lenb = 32 :=
  ⟨busyAt 0x200, rfl, rfl, rfl, rfl, rfl⟩

theorem loading_turns : ∀ u ∈ loading, loadTurn u = true := by decide

theorem loadingShort_turns : ∀ u ∈ loadingShort, loadTurn u = true := by decide

theorem quiet_sequencer (n : Nat) : ∀ u ∈ List.replicate n Turn.sequencer, quietTurn u = true := by
  intro u hu
  rw [(List.mem_replicate.mp hu).2]
  rfl

theorem witness_LoadingStoresOperands :
    ∃ (s : State) (ts rest : List Turn), ControlInv s ∧ s.busy = false ∧ s.lena = 0 ∧
      s.lenb = 0 ∧ s.turns = ts ++ rest ∧ (∀ u ∈ ts, loadTurn u = true) :=
  ⟨_, loading, [.hstat], controlInv_idle (loading ++ [.hstat]), rfl, rfl, rfl, rfl, loading_turns⟩

/-- A call in which the sequencer has any number of turns. -/
theorem callOf (n : Nat) :
    ∃ (s : State) (ts post : List Turn) (u : Turn), ControlInv s ∧ s.busy = false ∧
      s.lena = 0 ∧ s.lenb = 0 ∧ s.turns = ts ++ u :: post ∧ (∀ v ∈ ts, loadTurn v = true) ∧
      startTurn u = true ∧ (∀ v ∈ post, quietTurn v = true) ∧
      (operandBytes .a ts).length = 32 ∧ (operandBytes .b ts).length = 32 ∧
      post.count .sequencer = n :=
  ⟨_, loading, List.replicate n .sequencer, .hcmd 0x400,
    controlInv_idle (loading ++ .hcmd 0x400 :: List.replicate n .sequencer), rfl, rfl, rfl, rfl,
    loading_turns, by decide, quiet_sequencer n, by decide, by decide,
    List.count_replicate_self ..⟩

/-- The first clause of `CallComputesProduct`: a call cut short by one turn. -/
theorem witness_CallComputesProduct_cut :
    ∃ (s : State) (ts post : List Turn) (u : Turn), ControlInv s ∧ s.busy = false ∧
      s.lena = 0 ∧ s.lenb = 0 ∧ s.turns = ts ++ u :: post ∧ (∀ v ∈ ts, loadTurn v = true) ∧
      startTurn u = true ∧ (∀ v ∈ post, quietTurn v = true) ∧
      (operandBytes .a ts).length = 32 ∧ (operandBytes .b ts).length = 32 ∧
      post.count .sequencer = 329 :=
  callOf 329

/-- The second clause: a whole call. -/
theorem witness_CallComputesProduct_whole :
    ∃ (s : State) (ts post : List Turn) (u : Turn), ControlInv s ∧ s.busy = false ∧
      s.lena = 0 ∧ s.lenb = 0 ∧ s.turns = ts ++ u :: post ∧ (∀ v ∈ ts, loadTurn v = true) ∧
      startTurn u = true ∧ (∀ v ∈ post, quietTurn v = true) ∧
      (operandBytes .a ts).length = 32 ∧ (operandBytes .b ts).length = 32 ∧
      post.count .sequencer = 330 :=
  callOf 330

/-- A call with one byte too few in which the sequencer has any number of turns. -/
theorem shortCallOf (n : Nat) :
    ∃ (s : State) (ts post : List Turn) (u : Turn), ControlInv s ∧ s.busy = false ∧
      s.lena = 0 ∧ s.lenb = 0 ∧ s.turns = ts ++ u :: post ∧ (∀ v ∈ ts, loadTurn v = true) ∧
      startTurn u = true ∧ (∀ v ∈ post, quietTurn v = true) ∧
      multiply (operandBytes .a ts) (operandBytes .b ts) = .error .invalidInputLength ∧
      post.count .sequencer = n :=
  ⟨_, loadingShort, List.replicate n .sequencer, .hcmd 0x400,
    controlInv_idle (loadingShort ++ .hcmd 0x400 :: List.replicate n .sequencer), rfl, rfl, rfl,
    rfl, loadingShort_turns, by decide, quiet_sequencer n,
    if_neg (by decide), List.count_replicate_self ..⟩

/-- The first clause of `WrongLengthEndsCall`: before the sequencer's first turn. -/
theorem witness_WrongLengthEndsCall_before :
    ∃ (s : State) (ts post : List Turn) (u : Turn), ControlInv s ∧ s.busy = false ∧
      s.lena = 0 ∧ s.lenb = 0 ∧ s.turns = ts ++ u :: post ∧ (∀ v ∈ ts, loadTurn v = true) ∧
      startTurn u = true ∧ (∀ v ∈ post, quietTurn v = true) ∧
      multiply (operandBytes .a ts) (operandBytes .b ts) = .error .invalidInputLength ∧
      post.count .sequencer = 0 :=
  shortCallOf 0

/-- The second clause: from the sequencer's first turn on. -/
theorem witness_WrongLengthEndsCall_after :
    ∃ (s : State) (ts post : List Turn) (u : Turn), ControlInv s ∧ s.busy = false ∧
      s.lena = 0 ∧ s.lenb = 0 ∧ s.turns = ts ++ u :: post ∧ (∀ v ∈ ts, loadTurn v = true) ∧
      startTurn u = true ∧ (∀ v ∈ post, quietTurn v = true) ∧
      multiply (operandBytes .a ts) (operandBytes .b ts) = .error .invalidInputLength ∧
      post.count .sequencer = 1 :=
  shortCallOf 1

theorem witness_EveryCallTerminates :
    ∃ s : State, ControlInv s ∧ s.busy = true ∧ s.turns = [] :=
  ⟨busyAt 0x200, controlInv_busyAt _ (by decide) (by decide), rfl, rfl⟩

theorem witness_HistoryDoesNotMatter :
    ∃ (s s' : State) (ts post : List Turn) (u : Turn), ControlInv s ∧ ControlInv s' ∧
      s.busy = false ∧ s'.busy = false ∧ s.lena = 0 ∧ s.lenb = 0 ∧ s'.lena = 0 ∧ s'.lenb = 0 ∧
      s.turns = ts ++ u :: post ∧ s'.turns = ts ++ u :: post ∧ (∀ v ∈ ts, loadTurn v = true) ∧
      startTurn u = true ∧ (∀ v ∈ post, quietTurn v = true) ∧ s ≠ s' := by
  refine ⟨{ State.reset with turns := loading ++ .hcmd 0x400 :: [.sequencer] },
    { State.reset with turns := loading ++ .hcmd 0x400 :: [.sequencer], res := seqB }, loading,
    [.sequencer], .hcmd 0x400, controlInv_idle _, ?_, rfl, rfl, rfl, rfl, rfl, rfl, rfl, rfl,
    loading_turns, by decide, by decide, by decide⟩
  have h := controlInv_idle (loading ++ .hcmd 0x400 :: [.sequencer])
  exact ⟨h.1, h.2, h.3, h.4, h.5, h.6, h.7, h.8⟩

/-- Two hosts about to append different bytes. -/
theorem witness_StepHidesData : ∃ s t : State, PublicEq s t ∧ s ≠ t :=
  ⟨{ State.reset with turns := [.hcmd 0x203] }, { State.reset with turns := [.hcmd 0x2FF] },
    ⟨rfl, rfl, rfl, rfl, rfl, rfl, by decide, rfl, rfl⟩, by decide⟩

/-- Two calls with different operands. -/
theorem witness_TracesAreEqual : ∃ (n : Nat) (s t : State), n = 330 ∧ PublicEq s t ∧ s ≠ t :=
  ⟨330, { busyAt 0x200 with opa := seqB }, busyAt 0x200, rfl,
    ⟨rfl, rfl, rfl, rfl, rfl, rfl, rfl, rfl, rfl⟩, by decide⟩

theorem witness_InstancesAreIndependent :
    ∃ (count : Nat) (sys sm sn : System count) (m n : Fin count), m ≠ n ∧
      systemStep sys m = .next sm ∧ systemStep sys n = .next sn :=
  ⟨2, #v[busyAt 0x200, busyAt 0x203], _, _, 0, 1, by decide, rfl, rfl⟩

theorem witness_MultiplyIsFieldProduct :
    (∃ x y : List Byte, x.length = 32 ∧ y.length = 32) ∧
    (∃ x y : List Byte, x.length ≠ 32 ∨ y.length ≠ 32) :=
  ⟨⟨List.replicate 32 3, List.replicate 32 5, rfl, rfl⟩, ⟨[], [], .inl (by decide)⟩⟩

end Sys2Proof.Tests
end

/-! ## Sequencer words by their fields, and the codes that decode (R74 to R80) -/

namespace Sys2Proof

theorem toNat_seqPhase (w : BitVec 12) : (seqPhase w).toNat = w.toNat / 512 := by
  have := w.isLt
  simp only [seqPhase, BitVec.extractLsb'_toNat, Nat.shiftRight_eq_div_pow]
  omega

theorem toNat_seqK (w : BitVec 12) : (seqK w).toNat = w.toNat / 8 % 64 := by
  simp [seqK, BitVec.extractLsb'_toNat, Nat.shiftRight_eq_div_pow]

theorem toNat_seqS (w : BitVec 12) : (seqS w).toNat = w.toNat % 8 := by
  simp [seqS, BitVec.extractLsb'_toNat]

theorem toNat_mkSeq (ph : BitVec 3) (k : BitVec 6) (st : BitVec 3) :
    (mkSeq ph k st).toNat = 512 * ph.toNat + 8 * k.toNat + st.toNat := by
  simp only [mkSeq, BitVec.toNat_append, Nat.shiftLeft_eq, Nat.mul_comm _ (2 ^ _),
    ← Nat.two_pow_add_eq_or_of_lt k.isLt, ← Nat.two_pow_add_eq_or_of_lt st.isLt]
  omega

/-- A sequencer word is the word of its three fields (R74). -/
theorem mkSeq_fields (w : BitVec 12) : mkSeq (seqPhase w) (seqK w) (seqS w) = w := by
  apply BitVec.eq_of_toNat_eq
  rw [toNat_mkSeq, toNat_seqPhase, toNat_seqK, toNat_seqS]
  omega

section
variable (ph : BitVec 3) (k : BitVec 6) (st : BitVec 3)

@[simp] theorem seqPhase_mkSeq : seqPhase (mkSeq ph k st) = ph := by
  apply BitVec.eq_of_toNat_eq
  rw [toNat_seqPhase, toNat_mkSeq]
  omega

@[simp] theorem seqK_mkSeq : seqK (mkSeq ph k st) = k := by
  apply BitVec.eq_of_toNat_eq
  rw [toNat_seqK, toNat_mkSeq]
  omega

@[simp] theorem seqS_mkSeq : seqS (mkSeq ph k st) = st := by
  apply BitVec.eq_of_toNat_eq
  rw [toNat_seqS, toNat_mkSeq]
  omega

end

theorem mkSeq_inj {ph ph' : BitVec 3} {k k' : BitVec 6} {st st' : BitVec 3} :
    mkSeq ph k st = mkSeq ph' k' st' ↔ ph = ph' ∧ k = k' ∧ st = st' := by
  constructor
  · intro h
    exact ⟨by simpa using congrArg seqPhase h, by simpa using congrArg seqK h,
      by simpa using congrArg seqS h⟩
  · rintro ⟨rfl, rfl, rfl⟩; rfl

/-- A masked word decides the masked fields. -/
theorem fields_of_mask {w m p : BitVec 12} (h : w &&& m = p) :
    seqPhase w &&& seqPhase m = seqPhase p ∧ seqK w &&& seqK m = seqK p ∧
      seqS w &&& seqS m = seqS p := by
  subst h
  simp [seqPhase, seqK, seqS, BitVec.extractLsb'_and]

/-- A step field whose top bit is clear is the two bits an operand is read from (R75). -/
theorem ofNat_low_of_top_clear {w : BitVec 12} (h : seqS w &&& 4 = 0) :
    BitVec.ofNat 3 (w.extractLsb' 0 2).toNat = seqS w := by
  have hw : w.extractLsb' 0 2 = (seqS w).extractLsb' 0 2 := by
    apply BitVec.eq_of_toNat_eq
    simp [seqS, BitVec.extractLsb'_toNat]
  rw [hw]
  generalize seqS w = x at h ⊢
  revert x; decide

/-- The rows with no operand bits match one word each. -/
theorem eq_of_full_mask {w p : BitVec 12} (h : w &&& 0xFFF = p) : w = p := by
  rw [← h]
  exact (BitVec.and_allOnes (x := w)).symm

/-! ### Decoding -/

/-- What a table lookup found is what a matching row makes of the word. -/
theorem exists_row_of_lookup {rows : List Row} {w : BitVec 12} {i : Instr}
    (h : lookup rows w = some i) : ∃ r ∈ rows, w &&& r.mask = r.pat ∧ r.make w = i := by
  obtain ⟨r, hr, hi⟩ := Option.map_eq_some_iff.mp h
  exact ⟨r, List.mem_of_find?_eq_some hr, by simpa [rowMatches] using List.find?_some hr, hi⟩

theorem decodeSeq_eq_ok {w : BitVec 12} {i : Instr} :
    decodeSeq w = .ok i ↔ lookup seqRows w = some i := by
  unfold decodeSeq
  split <;> simp_all

theorem decodeHcmd_eq_ok {w : BitVec 12} {i : Instr} :
    decodeHcmd w = .ok i ↔ lookup hcmdRows w = some i := by
  unfold decodeHcmd
  split <;> simp_all

/-- A sequencer word that decodes is the code of its micro-operation (R75, R76). -/
theorem encode_of_decodeSeq {w : BitVec 12} {i : Instr} (h : decodeSeq w = .ok i) :
    encode i = .seq w := by
  obtain ⟨r, hr, hm, rfl⟩ := exists_row_of_lookup (decodeSeq_eq_ok.mp h)
  simp only [seqRows, List.mem_cons, List.not_mem_nil, or_false] at hr
  obtain ⟨hph, hk, hst⟩ := fields_of_mask hm
  rcases hr with rfl | rfl | rfl | rfl | rfl | rfl | rfl | rfl | rfl | rfl
  · exact eq_of_full_mask hm ▸ rfl -- WAIT
  · exact eq_of_full_mask hm ▸ rfl -- CHK
  · exact eq_of_full_mask hm ▸ rfl -- PACKA
  · exact eq_of_full_mask hm ▸ rfl -- PACKB
  · exact eq_of_full_mask hm ▸ rfl -- CINIT
  · -- FOLD
    have hph : seqPhase w = phComb := by rwa [← BitVec.and_allOnes (x := seqPhase w)]
    simp only [encode, BitVec.val_toFin, ofNat_low_of_top_clear hst, ← hph]
    rw [BitVec.ofNat_toNat, BitVec.setWidth_eq]
    exact congrArg Code.seq (mkSeq_fields w)
  · -- SHL1
    have hph : seqPhase w = phComb := by rwa [← BitVec.and_allOnes (x := seqPhase w)]
    have hst : seqS w = 4 := by rwa [← BitVec.and_allOnes (x := seqS w)]
    simp only [encode, BitVec.val_toFin, ← hst, ← hph]
    rw [BitVec.ofNat_toNat, BitVec.setWidth_eq]
    exact congrArg Code.seq (mkSeq_fields w)
  · -- RFOLD
    have hph : seqPhase w = phRed := by rwa [← BitVec.and_allOnes (x := seqPhase w)]
    have hk : seqK w = 0 := by rwa [← BitVec.and_allOnes (x := seqK w)]
    simp only [encode, BitVec.val_toFin, ofNat_low_of_top_clear hst, ← hph, ← hk]
    exact congrArg Code.seq (mkSeq_fields w)
  · exact eq_of_full_mask hm ▸ rfl -- UNPACK
  · exact eq_of_full_mask hm ▸ rfl -- FIN

/-- A host command that decodes is no micro-operation (R79). -/
theorem encode_of_decodeHcmd {w : BitVec 12} {i : Instr} (h : decodeHcmd w = .ok i) :
    ∃ v, encode i = .hcmd v := by
  obtain ⟨r, hr, -, rfl⟩ := exists_row_of_lookup (decodeHcmd_eq_ok.mp h)
  simp only [hcmdRows, List.mem_cons, List.not_mem_nil, or_false] at hr
  rcases hr with rfl | rfl | rfl | rfl | rfl <;> exact ⟨_, rfl⟩

/-- The code of every operation is legal in its format. -/
theorem encode_wellFormed (i : Instr) : (encode i).wellFormed = true := by
  cases i with
  | wait => exact Laws.EncodeLegal.wait
  | chk => exact Laws.EncodeLegal.chk
  | packa => exact Laws.EncodeLegal.packa
  | packb => exact Laws.EncodeLegal.packb
  | cinit => exact Laws.EncodeLegal.cinit
  | fold k j => exact Laws.EncodeLegal.fold k j
  | shl1 k => exact Laws.EncodeLegal.shl1 k
  | rfold ss => exact Laws.EncodeLegal.rfold ss
  | unpack => exact Laws.EncodeLegal.unpack
  | fin => exact Laws.EncodeLegal.fin
  | reset => exact Laws.EncodeLegal.reset
  | start => exact Laws.EncodeLegal.start
  | opwrA v => exact Laws.EncodeLegal.opwrA v
  | opwrB v => exact Laws.EncodeLegal.opwrB v
  | hnop => exact Laws.EncodeLegal.hnop
  | resrd n => exact Laws.EncodeLegal.resrd n
  | statrd => exact Laws.EncodeLegal.statrd

/-- The word of a micro-operation is a legal value of `SEQ`. -/
theorem seqLegal_of_encode {w : BitVec 12} {i : Instr} (h : encode i = .seq w) :
    seqLegal w = true := by
  have hi := encode_wellFormed i
  rwa [h] at hi

/-- R80's list of illegal words by the fields: what it leaves of each phase. -/
theorem fields_of_seqLegal {w : BitVec 12} (h : seqLegal w = true) :
    (seqPhase w = phIdle ∧ seqK w = 0 ∧ seqS w = 0) ∨
    (seqPhase w = phLoad ∧ seqK w = 0 ∧ (seqS w).toNat < 4) ∨
    (seqPhase w = phComb ∧ (seqS w).toNat < 5) ∨
    (seqPhase w = phRed ∧ seqK w = 0 ∧ (seqS w).toNat < 4) ∨
    (seqPhase w = phStore ∧ seqK w = 0 ∧ (seqS w).toNat < 2) := by
  simp only [seqLegal, phaseUnused, idleBad, loadBad, combBad, redBad, storeBad,
    ← toNat_seqPhase, ← toNat_seqK, ← toNat_seqS, Bool.not_eq_true', Bool.or_eq_false_iff,
    Bool.and_eq_false_iff, decide_eq_false_iff_not, beq_eq_false_iff_ne, bne_eq_false_iff_eq] at h
  simp only [← BitVec.toNat_inj, phIdle, phLoad, phComb, phRed, phStore, BitVec.ofNat_eq_ofNat,
    BitVec.toNat_ofNat]
  omega

/-- A legal value of `SEQ` selects a micro-operation: R80's list of illegal words leaves only
words of R76. -/
theorem exists_encode_of_seqLegal {w : BitVec 12} (h : seqLegal w = true) :
    ∃ i, encode i = .seq w := by
  rw [← mkSeq_fields w]
  rcases fields_of_seqLegal h with
    ⟨hp, hk, hs⟩ | ⟨hp, hk, hs⟩ | ⟨hp, hs⟩ | ⟨hp, hk, hs⟩ | ⟨hp, hk, hs⟩
  · exact ⟨.wait, by rw [hp, hk, hs]; rfl⟩
  · have four : ∀ st : BitVec 3, st.toNat < 4 → st = 0 ∨ st = 1 ∨ st = 2 ∨ st = 3 := by decide
    rw [hp, hk]
    rcases four _ hs with hs | hs | hs | hs <;> rw [hs]
    · exact ⟨.chk, rfl⟩
    · exact ⟨.packa, rfl⟩
    · exact ⟨.packb, rfl⟩
    · exact ⟨.cinit, rfl⟩
  · have five : ∀ st : BitVec 3, st.toNat < 5 → st = 4 ∨ st.toNat < 4 := by decide
    rw [hp]
    rcases five _ hs with hs | hs
    · exact ⟨.shl1 (seqK w).toFin, by simp [encode, hs]⟩
    · exact ⟨.fold (seqK w).toFin ⟨_, hs⟩, by simp [encode]⟩
  · exact ⟨.rfold ⟨_, hs⟩, by simp [encode, hp, hk]⟩
  · have two : ∀ st : BitVec 3, st.toNat < 2 → st = 0 ∨ st = 1 := by decide
    rw [hp, hk]
    rcases two _ hs with hs | hs <;> rw [hs]
    · exact ⟨.unpack, rfl⟩
    · exact ⟨.fin, rfl⟩

/-- A micro-operation is read back from its code. -/
theorem decodeSeq_of_encode {w : BitVec 12} {i : Instr} (h : encode i = .seq w) :
    decodeSeq w = .ok i := by
  cases i <;> cases h
  case fold k j => revert k j; decide
  case shl1 k => revert k; decide
  case rfold ss => revert ss; decide
  all_goals rfl

end Sys2Proof

/-! ## What an operation and a step can do, as relations to take apart -/

namespace Sys2Proof.Machine

/-! ### Appending a byte, field by field -/

section
variable (s : State) (o : Operand) (v : Byte)

@[simp] theorem appendByte_a : (appendByte s o v).a = s.a := by
  obtain ⟨x, hx⟩ := appendByte_eq s o v; simp [hx]
@[simp] theorem appendByte_b : (appendByte s o v).b = s.b := by
  obtain ⟨x, hx⟩ := appendByte_eq s o v; simp [hx]
@[simp] theorem appendByte_sb : (appendByte s o v).sb = s.sb := by
  obtain ⟨x, hx⟩ := appendByte_eq s o v; simp [hx]
@[simp] theorem appendByte_c : (appendByte s o v).c = s.c := by
  obtain ⟨x, hx⟩ := appendByte_eq s o v; simp [hx]
@[simp] theorem appendByte_res : (appendByte s o v).res = s.res := by
  obtain ⟨x, hx⟩ := appendByte_eq s o v; cases o <;> simp [hx, operandSpace]
@[simp] theorem appendByte_busy : (appendByte s o v).busy = s.busy := by
  obtain ⟨x, hx⟩ := appendByte_eq s o v; simp [hx]
@[simp] theorem appendByte_done : (appendByte s o v).done = s.done := by
  obtain ⟨x, hx⟩ := appendByte_eq s o v; simp [hx]
@[simp] theorem appendByte_err : (appendByte s o v).err = s.err := by
  obtain ⟨x, hx⟩ := appendByte_eq s o v; simp [hx]
@[simp] theorem appendByte_seq : (appendByte s o v).seq = s.seq := by
  obtain ⟨x, hx⟩ := appendByte_eq s o v; simp [hx]
@[simp] theorem appendByte_turns : (appendByte s o v).turns = s.turns := by
  obtain ⟨x, hx⟩ := appendByte_eq s o v; simp [hx]
@[simp] theorem appendByte_reply : (appendByte s o v).reply = s.reply := by
  obtain ⟨x, hx⟩ := appendByte_eq s o v; simp [hx]
@[simp] theorem appendByte_draws : (appendByte s o v).draws = s.draws := by
  obtain ⟨x, hx⟩ := appendByte_eq s o v; simp [hx]
@[simp] theorem appendByte_wasReset : (appendByte s o v).wasReset = s.wasReset := by
  obtain ⟨x, hx⟩ := appendByte_eq s o v; simp [hx]
@[simp] theorem appendByte_a_opb : (appendByte s .a v).opb = s.opb := by
  obtain ⟨x, hx⟩ := appendByte_eq s .a v; simp [hx, operandSpace]
@[simp] theorem appendByte_a_lena : (appendByte s .a v).lena = bumpLen s.lena := by
  obtain ⟨x, hx⟩ := appendByte_eq s .a v; simp [hx, State.len]
@[simp] theorem appendByte_a_lenb : (appendByte s .a v).lenb = s.lenb := by
  obtain ⟨x, hx⟩ := appendByte_eq s .a v; simp [hx]
@[simp] theorem appendByte_b_opa : (appendByte s .b v).opa = s.opa := by
  obtain ⟨x, hx⟩ := appendByte_eq s .b v; simp [hx, operandSpace]
@[simp] theorem appendByte_b_lena : (appendByte s .b v).lena = s.lena := by
  obtain ⟨x, hx⟩ := appendByte_eq s .b v; simp [hx]
@[simp] theorem appendByte_b_lenb : (appendByte s .b v).lenb = bumpLen s.lenb := by
  obtain ⟨x, hx⟩ := appendByte_eq s .b v; simp [hx, State.len]

end

/-! ### Operations -/

/-- `Effect s i t`: operation `i`, its guard being met in `s`, answers the next state `t`. One
constructor for each way an operation can answer one. -/
inductive Effect (s : State) : Instr → State → Prop
  | wait : Effect s .wait s
  | chkPass (hl : lengthsOk s = true) : Effect s .chk (s.setSeq seqPackA)
  | chkFail (hl : lengthsOk s = false) : Effect s .chk (raise .invalidInputLength s)
  | packa : Effect s .packa ((s.setA (pack s.opa)).setSeq seqPackB)
  | packb : Effect s .packb ((s.setB (pack s.opb)).setSeq seqCinit)
  | cinit : Effect s .cinit (((s.setC zeroWords).setSb (initShift s.b)).setSeq seqComb)
  | fold (k : Fin 64) (j : Fin 4) : Effect s (.fold k j)
      ((s.setC (foldWords s.c s.sb (foldMask s.a[j] k) j)).setSeq (seqAfterFold k j))
  | shl1 (k : Fin 64) : Effect s (.shl1 k) ((s.setSb (shl1Words s.sb)).setSeq (seqAfterShl1 k))
  | rfold (ss : Fin 4) : Effect s (.rfold ss)
      ((s.setC (rfoldWords s.c ss)).setSeq (seqAfterRfold ss))
  | unpack : Effect s .unpack ((s.setBuffer .res (unpack (lowWords s.c))).setSeq seqFin)
  | fin : Effect s .fin ((s.flagsDone.clearLens).setSeq seqIdle)
  | reset : Effect s .reset (scrambleData (resetControl s)).markReset
  | start (hb : s.busy = false) : Effect s .start (s.flagsBusy.setSeq seqChk)
  | opwrA (hb : s.busy = false) (v : Byte) : Effect s (.opwrA v) (appendByte s .a v)
  | opwrB (hb : s.busy = false) (v : Byte) : Effect s (.opwrB v) (appendByte s .b v)
  | hnop : Effect s .hnop s
  | resrd (hv : s.resValid = true) (n : Fin 32) :
      Effect s (.resrd n) (s.setReply (.byte (memRead s .res n)))
  | statrd : Effect s .statrd (s.setReply s.status)

theorem next_unique {i : Instr} {s t u : State} (hu : exec i s = .next u)
    (h : exec i s = .next t) : u = t :=
  Host.Outcome.next.inj (hu.symm.trans h)

/-- The relation is `exec`. -/
theorem exec_eq_next_iff {i : Instr} {s t : State} : exec i s = .next t ↔ Effect s i t := by
  constructor
  · intro h
    cases i with
    | wait => exact next_unique (exec_wait s) h ▸ .wait
    | chk =>
      cases hl : lengthsOk s <;> rw [exec_chk, hl] at h <;> obtain rfl := Host.Outcome.next.inj h
      · exact .chkFail hl
      · exact .chkPass hl
    | packa => exact next_unique (exec_packa s) h ▸ .packa
    | packb => exact next_unique (exec_packb s) h ▸ .packb
    | cinit => exact next_unique (exec_cinit s) h ▸ .cinit
    | fold k j => exact next_unique (exec_fold s k j) h ▸ .fold k j
    | shl1 k => exact next_unique (exec_shl1 s k) h ▸ .shl1 k
    | rfold ss => exact next_unique (exec_rfold s ss) h ▸ .rfold ss
    | unpack => exact next_unique (exec_unpack s) h ▸ .unpack
    | fin => exact next_unique (exec_fin s) h ▸ .fin
    | reset => exact next_unique (exec_reset s) h ▸ .reset
    | start =>
      rw [exec_start] at h
      split at h <;> cases h
      exact .start (by simp_all)
    | opwrA v =>
      rw [exec_opwrA] at h
      split at h <;> cases h
      exact .opwrA (by simp_all) v
    | opwrB v =>
      rw [exec_opwrB] at h
      split at h <;> cases h
      exact .opwrB (by simp_all) v
    | hnop => exact next_unique (exec_hnop s) h ▸ .hnop
    | resrd n =>
      rw [exec_resrd] at h
      split at h <;> cases h
      exact .resrd (by simp_all) n
    | statrd => exact next_unique (exec_statrd s) h ▸ .statrd
  · intro h
    cases h with
    | chkPass hl => rw [exec_chk, hl]; rfl
    | chkFail hl => rw [exec_chk, hl]; rfl
    | start hb => rw [exec_start, hb]; rfl
    | opwrA hb v => rw [exec_opwrA, hb]; rfl
    | opwrB hb v => rw [exec_opwrB, hb]; rfl
    | resrd hv n => rw [exec_resrd, hv]; rfl
    | _ => rfl

/-- No operation writes the turns still to come. -/
theorem Effect.turns_eq {i : Instr} {s t : State} (hx : Effect s i t) : t.turns = s.turns := by
  cases hx <;> simp

/-- Only `START` begins a call. -/
theorem Effect.not_busy {i : Instr} {s t : State} (hx : Effect s i t) (hi : i ≠ .start)
    (hb : s.busy = false) : t.busy = false := by
  cases hx <;> simp_all

/-! ### Steps -/

theorem issued_cases (s : State) : issued s = .seq s.seq ∨ (∃ w, issued s = .hcmd w) ∨
    (∃ n, issued s = .hrd n) ∨ issued s = .hstat := by
  unfold issued
  split <;> simp

/-- A micro-operation is performed from its own word in `SEQ`. -/
theorem seq_of_decode_issued {s : State} {i : Instr} {w : BitVec 12}
    (h : decode (issued s) = .ok i) (hw : encode i = .seq w) : s.seq = w := by
  rcases issued_cases s with hs | ⟨v, hs⟩ | ⟨n, hs⟩ | hs <;> rw [hs] at h
  · exact Code.seq.inj ((encode_of_decodeSeq h).symm.trans hw)
  · obtain ⟨v', hv⟩ := encode_of_decodeHcmd h
    rw [hv] at hw; cases hw
  · cases h; cases hw
  · cases h; cases hw

/-- Everything a step that answers a next state can have done: an operation's effect on the state
with the turn taken off, a micro-operation's from its own word in `SEQ`. -/
theorem step_next_effect {s t : State} (h : step s = .next t) :
    ∃ i, decode (issued s) = .ok i ∧ Effect (advance s) i t ∧
      (∀ w, encode i = .seq w → s.seq = w) := by
  obtain ⟨i, hi, -, hx⟩ := step_next h
  exact ⟨i, hi, exec_eq_next_iff.mp hx, fun _ => seq_of_decode_issued hi⟩

/-- The step of a turn whose operation's guard is met. -/
theorem step_of_effect {s t : State} {i : Instr} (hm : s.wasReset = true)
    (hi : decode (issued s) = .ok i) (h : Effect (advance s) i t) : step s = .next t := by
  rw [step_of_decode (mayTake_of_wasReset hm) hi, exec_eq_next_iff.mpr h]

/-- The effect behind a step whose operation is known. -/
theorem effect_of_step {s t : State} {i : Instr} (hi : decode (issued s) = .ok i)
    (h : step s = .next t) : Effect (advance s) i t := by
  obtain ⟨j, hj, hx, -⟩ := step_next_effect h
  rw [hi] at hj
  cases hj
  exact hx

@[simp] theorem lengthsOk_advance (s : State) : lengthsOk (advance s) = lengthsOk s := rfl

end Sys2Proof.Machine

namespace Sys2Proof.Safety
open Sys2Proof.Machine

/-- Settles O25, operation by operation. -/
theorem modelFieldsKept : Obligations.ModelFieldsKept := by
  intro i s t h
  cases exec_eq_next_iff.mp h <;> simp

/-- Settles O27. -/
theorem resetValues : Obligations.ResetValues := by
  unfold Obligations.ResetValues
  decide

/-- Settles O31, operation by operation: only `START`, `FIN`, `CHK` and `RESET` write a flag. -/
theorem flagsChangeOnlyAsListed : Obligations.FlagsChangeOnlyAsListed := by
  intro s t i hi h
  cases effect_of_step hi h <;> simp_all

/-- Settles O32, operation by operation. -/
theorem registersWrittenOnlyAsListed : Obligations.RegistersWrittenOnlyAsListed := by
  intro s t i hi h
  cases effect_of_step hi h <;> simp

end Sys2Proof.Safety

/-! ## The sequencer's successors (R32) -/

namespace Sys2Proof.Machine

theorem seqLegal_seqAfterFold (k : Fin 64) (j : Fin 4) : seqLegal (seqAfterFold k j) = true := by
  revert k j; decide

theorem seqLegal_seqAfterShl1 (k : Fin 64) : seqLegal (seqAfterShl1 k) = true := by
  revert k; decide

theorem seqLegal_seqAfterRfold (ss : Fin 4) : seqLegal (seqAfterRfold ss) = true := by
  revert ss; decide

@[simp] theorem seqPhase_seqAfterFold (k : Fin 64) (j : Fin 4) :
    seqPhase (seqAfterFold k j) = phComb := seqPhase_mkSeq ..

/-- Before the last bit position the shift goes on to the next one. -/
theorem seqAfterShl1_of_le {k : Fin 64} (h : k.val ≤ 62) :
    seqAfterShl1 k = mkSeq phComb (BitVec.ofNat 6 (k.val + 1)) 0 := if_pos h

/-- After the last bit position comes the reducer. -/
theorem seqAfterShl1_of_not_le {k : Fin 64} (h : ¬k.val ≤ 62) :
    seqAfterShl1 k = mkSeq phRed 0 3 := if_neg h

theorem seqPhase_seqAfterShl1_ne_idle (k : Fin 64) : seqPhase (seqAfterShl1 k) ≠ phIdle := by
  unfold seqAfterShl1
  split <;> rw [seqPhase_mkSeq] <;> decide

theorem seqPhase_seqAfterRfold (ss : Fin 4) :
    seqPhase (seqAfterRfold ss) = phRed ∨ seqPhase (seqAfterRfold ss) = phStore := by
  unfold seqAfterRfold
  split <;> simp

end Sys2Proof.Machine

namespace Sys2Proof.Safety
open Sys2Proof.Machine

/-- With no turn of the host listed the code acted on is `SEQ`. -/
theorem issued_of_sequencersTurn {s : State} (h : sequencersTurn s) : issued s = .seq s.seq := by
  rcases h with h | ⟨rest, h⟩
  · exact issued_of_nil h
  · exact issued_of_sequencer h

end Sys2Proof.Safety

namespace Sys2Proof.Machine
open Sys2Proof.Safety

/-- A micro-operation has no guard: it always answers a next state. -/
theorem exists_effect_of_encode_seq {i : Instr} {w : BitVec 12} (h : encode i = .seq w)
    (s : State) : ∃ t, Effect s i t := by
  cases i with
  | start | opwrA | opwrB | resrd | reset | hnop | statrd => cases h
  | _ => exact ⟨_, exec_eq_next_iff.mp rfl⟩

/-- R32's table at the words of the comb loop. -/
theorem successor_fold (k : Fin 64) (j : Fin 4) (ok : Bool) :
    successor (mkSeq phComb (BitVec.ofNat 6 k.val) (BitVec.ofNat 3 j.val)) ok =
      seqAfterFold k j := by
  revert k j ok; decide

theorem successor_shl1 (k : Fin 64) (ok : Bool) :
    successor (mkSeq phComb (BitVec.ofNat 6 k.val) 4) ok = seqAfterShl1 k := by
  revert k ok; decide

theorem successor_rfold (ss : Fin 4) (ok : Bool) :
    successor (mkSeq phRed 0 (BitVec.ofNat 3 ss.val)) ok = seqAfterRfold ss := by
  revert ss ok; decide

/-- A micro-operation performed from its own word writes the word that R32's table gives. -/
theorem Effect.seq_eq_successor {i : Instr} {s t : State} (h : Effect s i t)
    (hi : encode i = .seq s.seq) : t.seq = successor s.seq (lengthsOk s) := by
  cases h with
  | wait => rw [← Code.seq.inj hi]; rfl
  | chkPass hl => rw [← Code.seq.inj hi, hl]; rfl
  | chkFail hl => rw [← Code.seq.inj hi, hl]; rfl
  | packa => rw [← Code.seq.inj hi]; rfl
  | packb => rw [← Code.seq.inj hi]; rfl
  | cinit => rw [← Code.seq.inj hi]; rfl
  | fold k j => rw [← Code.seq.inj hi, successor_fold]; rfl
  | shl1 k => rw [← Code.seq.inj hi, successor_shl1]; rfl
  | rfold ss => rw [← Code.seq.inj hi, successor_rfold]; rfl
  | unpack => rw [← Code.seq.inj hi]; rfl
  | fin => rw [← Code.seq.inj hi]; rfl
  | reset | start | opwrA | opwrB | hnop | resrd | statrd => cases hi

end Sys2Proof.Machine

namespace Sys2Proof.Safety
open Sys2Proof.Machine

/-- Settles O34. -/
theorem sequencerFollowsTable : Obligations.SequencerFollowsTable := by
  intro s hr hturn hl
  obtain ⟨i, hi⟩ := exists_encode_of_seqLegal hl
  obtain ⟨t, ht⟩ := exists_effect_of_encode_seq hi (advance s)
  have hd : decode (issued s) = .ok i := by
    rw [issued_of_sequencersTurn hturn]
    exact decodeSeq_of_encode hi
  exact ⟨t, step_of_effect hr hd ht, ht.seq_eq_successor hi⟩

end Sys2Proof.Safety

/-! ## The control invariant (R38) -/

namespace Sys2Proof.Safety
open Sys2Proof.Machine

/-- The control fields that R38 constrains, besides `SEQ`. -/
structure SameControl (s t : State) : Prop where
  busy : t.busy = s.busy
  done : t.done = s.done
  err : t.err = s.err
  lena : t.lena = s.lena
  lenb : t.lenb = s.lenb
  wasReset : t.wasReset = s.wasReset

variable {s t : State}

/-- A step that writes no control field keeps the invariant. -/
theorem ControlInv.of_same (h : ControlInv s) (hc : SameControl s t) (hseq : t.seq = s.seq) :
    ControlInv t := by
  obtain ⟨hbusy, hdone, herr, ha, hb, hr⟩ := hc
  constructor <;> simp only [hbusy, hdone, herr, ha, hb, hr, hseq]
  · exact h.busy_iff
  · exact h.not_busy_done
  · exact h.err_done
  · exact h.seq_legal
  · exact h.lena_le
  · exact h.lenb_le
  · exact h.lens_ok
  · exact h.reset_seen

/-- Outside the idle phase a call is in progress. -/
theorem ControlInv.busy_of_seq (h : ControlInv s) {ph : BitVec 3} {k : BitVec 6} {st : BitVec 3}
    (hs : s.seq = mkSeq ph k st) (hp : ph ≠ phIdle) : s.busy = true :=
  h.busy_iff.mpr (by rwa [hs, seqPhase_mkSeq])

/-- A word of another phase, or of another step of the load phase, is not that of `CHK`. -/
theorem mkSeq_ne_seqChk {ph : BitVec 3} {k : BitVec 6} {st : BitVec 3}
    (h : ph ≠ phLoad ∨ st ≠ 0) : mkSeq ph k st ≠ seqChk := by
  intro e
  obtain ⟨rfl, -, rfl⟩ := mkSeq_inj.mp e
  simp at h

/-- A micro-operation of a call past its length check, going on within the call. -/
theorem ControlInv.of_call_step {ph : BitVec 3} {k : BitVec 6} {st : BitVec 3} {w : BitVec 12}
    (h : ControlInv s) (hs : s.seq = mkSeq ph k st) (hp : ph ≠ phIdle)
    (hne : ph ≠ phLoad ∨ st ≠ 0) (hc : SameControl s t) (hl : seqLegal w = true)
    (hw : seqPhase w ≠ phIdle) : ControlInv (t.setSeq w) := by
  have hb := h.busy_of_seq hs hp
  exact {
    busy_iff := ⟨fun _ => hw, fun _ => hc.busy.trans hb⟩
    not_busy_done := by simpa [hc.busy, hc.done] using h.not_busy_done
    err_done := by simpa [hc.err, hc.done] using h.err_done
    seq_legal := hl
    lena_le := hc.lena.symm ▸ h.lena_le
    lenb_le := hc.lenb.symm ▸ h.lenb_le
    lens_ok := fun _ _ => by
      have hl := h.lens_ok hb (hs ▸ mkSeq_ne_seqChk hne)
      exact ⟨hc.lena.trans hl.1, hc.lenb.trans hl.2⟩
    reset_seen := hc.wasReset.trans h.reset_seen }

/-- No call in progress: the sequencer is idle and the counters are in range. -/
theorem ControlInv.of_idle (hb : t.busy = false) (he : t.err = true → t.done = true)
    (hs : t.seq = seqIdle) (ha : t.lena.toNat ≤ 33) (hl : t.lenb.toNat ≤ 33)
    (hr : t.wasReset = true) : ControlInv t where
  busy_iff := by rw [hb, hs]; decide
  not_busy_done := by simp [hb]
  err_done := he
  seq_legal := by rw [hs]; decide
  lena_le := ha
  lenb_le := hl
  lens_ok := by simp [hb]
  reset_seen := hr

/-- Without a call the sequencer's word is that of `WAIT`. -/
theorem ControlInv.seq_of_not_busy (h : ControlInv s) (hb : s.busy = false) :
    s.seq = seqIdle := by
  have hp : seqPhase s.seq = phIdle := by
    by_contra hp
    exact absurd (h.busy_iff.mpr hp) (by simp [hb])
  have hw := mkSeq_fields s.seq
  rcases fields_of_seqLegal h.seq_legal with
    ⟨-, hk, hs⟩ | ⟨hp', -⟩ | ⟨hp', -⟩ | ⟨hp', -⟩ | ⟨hp', -⟩
  · rw [← hw, hp, hk, hs, seqIdle]
  all_goals exact absurd (hp.symm.trans hp') (by decide)

/-- Taking a turn off the list touches no control field. -/
theorem ControlInv.advance (h : ControlInv s) : ControlInv (advance s) :=
  h.of_same ⟨rfl, rfl, rfl, rfl, rfl, rfl⟩ rfl

theorem lengthsOk_iff : lengthsOk s = true ↔ s.lena = 32 ∧ s.lenb = 32 := by
  simp [lengthsOk]

/-- Every operation keeps R38, a micro-operation performed from its own word. -/
theorem ControlInv.effect {i : Instr} (h : ControlInv s)
    (hi : ∀ w, encode i = .seq w → s.seq = w) (hx : Effect s i t) : ControlInv t := by
  cases hx with
  | wait | hnop => exact h
  | resrd | statrd => exact h.of_same ⟨rfl, rfl, rfl, rfl, rfl, rfl⟩ rfl
  | chkPass hl =>
    have hb := h.busy_of_seq (hi _ rfl) (by decide)
    exact {
      busy_iff := ⟨fun _ => by simp [seqPackA]; decide, fun _ => hb⟩
      not_busy_done := h.not_busy_done
      err_done := h.err_done
      seq_legal := show seqLegal seqPackA = true by decide
      lena_le := h.lena_le
      lenb_le := h.lenb_le
      lens_ok := fun _ _ => lengthsOk_iff.mp hl
      reset_seen := h.reset_seen }
  | start hb => exact {
      busy_iff := by simp [seqChk]; decide
      not_busy_done := by simp
      err_done := by simp
      seq_legal := show seqLegal seqChk = true by decide
      lena_le := h.lena_le
      lenb_le := h.lenb_le
      lens_ok := fun _ hne => absurd rfl hne
      reset_seen := h.reset_seen }
  | chkFail | fin =>
    exact .of_idle (by simp) (by simp) (by simp) (by simp) (by simp) (by simpa using h.reset_seen)
  | reset => exact .of_idle (by simp) (by simp) (by simp) (by simp) (by simp) (by simp)
  | opwrA hb v =>
    exact .of_idle (by simpa) (by simpa using h.err_done) (by simpa using h.seq_of_not_busy hb)
      (by simpa using bumpLen_le h.lena_le) (by simpa using h.lenb_le) (by simpa using h.reset_seen)
  | opwrB hb v =>
    exact .of_idle (by simpa) (by simpa using h.err_done) (by simpa using h.seq_of_not_busy hb)
      (by simpa using h.lena_le) (by simpa using bumpLen_le h.lenb_le) (by simpa using h.reset_seen)
  | packa | packb | cinit | unpack =>
    exact h.of_call_step (hi _ rfl) (by decide) (by decide) (by constructor <;> simp) (by decide)
      (by decide)
  | fold k j =>
    exact h.of_call_step (hi _ rfl) (by decide) (.inl (by decide)) (by constructor <;> simp)
      (seqLegal_seqAfterFold k j) (by simp; decide)
  | shl1 k =>
    exact h.of_call_step (hi _ rfl) (by decide) (by decide) (by constructor <;> simp)
      (seqLegal_seqAfterShl1 k) (seqPhase_seqAfterShl1_ne_idle k)
  | rfold ss =>
    exact h.of_call_step (hi _ rfl) (by decide) (.inl (by decide)) (by constructor <;> simp)
      (seqLegal_seqAfterRfold ss)
      (by rcases seqPhase_seqAfterRfold ss with hp | hp <;> rw [hp] <;> decide)

/-- Settles O28: R38 holds after the operation that the step performed. -/
theorem stepKeepsControlInv : Obligations.StepKeepsControlInv := by
  intro s t h hstep
  obtain ⟨i, -, hx, hi⟩ := step_next_effect hstep
  exact h.advance.effect hi hx

end Sys2Proof.Safety

/-! ## The shift buffer and the accumulator as values (R101 to R103) -/

namespace Sys2Proof.Machine

/-- Values of `m` words are equal when they agree at every bit `r` of every word `q`. -/
theorem eq_of_word_bits {m : Nat} {x y : BitVec (64 * m)}
    (h : ∀ q r, q < m → r < 64 → x.getLsbD (64 * q + r) = y.getLsbD (64 * q + r)) : x = y := by
  apply BitVec.eq_of_getLsbD_eq
  intro n hn
  have hb := h (n / 64) (n % 64) (by omega) (by omega)
  rwa [Nat.div_add_mod] at hb

/-- `CINIT` loads the shift buffer with `B`, as a value (R101). -/
theorem val5_initShift (b : W4) : val5 (initShift b) = (val4 b).setWidth 320 := by
  refine eq_of_word_bits (m := 5) fun q r hq hr => ?_
  rw [getLsbD_val5_word _ _ _ hq hr, BitVec.getLsbD_setWidth]
  by_cases h : q < 4
  · rw [getLsbD_val4_word _ _ _ h hr, getElem_initShift_low _ _ h]
    simp [show 64 * q + r < 320 by omega]
  · obtain rfl : q = 4 := by omega
    rw [getElem_initShift_top, BitVec.getLsbD_of_ge (val4 b) _ (by omega)]
    simp

/-- `SHL1` doubles the shift buffer, as a value (R103). -/
theorem val5_shl1Words (old : W5) : val5 (shl1Words old) = val5 old <<< 1 := by
  refine eq_of_word_bits (m := 5) fun q r hq hr => ?_
  rw [getLsbD_val5_word _ _ _ hq hr, BitVec.getLsbD_shiftLeft, getElem_shl1Words]
  cases r with
  | succ r =>
    rw [show 64 * q + (r + 1) - 1 = 64 * q + r by omega, getLsbD_val5_word _ _ _ hq (by omega)]
    have carry : old[q - 1].getLsbD (63 + (r + 1)) = false := BitVec.getLsbD_of_ge _ _ (by omega)
    have here : old[q].getLsbD r = old[q][r] := BitVec.getLsbD_eq_getElem _
    by_cases h : 0 < q <;>
      simp [shl1Word, h, carry, hr, here, show 64 * q + (r + 1) < 320 by omega]
  | zero =>
    cases q with
    | zero => simp [shl1Word]
    | succ q =>
      rw [show 64 * (q + 1) + 0 - 1 = 64 * q + 63 by omega,
        getLsbD_val5_word _ _ _ (by omega) (by omega)]
      simp [shl1Word, show 64 * (q + 1) < 320 by omega]

end Sys2Proof.Machine

namespace Sys2Proof.Safety
open Sys2Proof.Machine

variable {s t : State}

/-! ## The shift buffer along the comb phase (R23) -/

/-- Outside the comb phase nothing is claimed of the shift buffer. -/
theorem ShiftInv.of_not_comb (h : seqPhase t.seq ≠ phComb) : ShiftInv t :=
  fun _ hp => absurd hp h

/-- At a comb word of position `k`. -/
theorem shiftInv_at {k : BitVec 6} {st : BitVec 3} (h : t.seq = mkSeq phComb k st)
    (hv : val5 t.sb = (val4 t.b).setWidth 320 <<< k.toNat) : ShiftInv t := by
  intro _ _
  rw [h, seqK_mkSeq, hv]

/-- A step that writes neither `B` nor the shift buffer and stays at its place keeps R23. -/
theorem ShiftInv.of_same (h : ShiftInv s) (hsb : t.sb = s.sb) (hb : t.b = s.b)
    (hseq : t.seq = s.seq) : ShiftInv t := by
  unfold ShiftInv
  rw [hsb, hb, hseq]
  exact h

/-- R23 at the word of a micro-operation of the comb phase. -/
theorem ShiftInv.value {i : Instr} {k : Fin 64} {st : BitVec 3} (h : ShiftInv s)
    (hs : s.seq = mkSeq phComb (BitVec.ofNat 6 k.val) st)
    (hi : encode i = .seq (mkSeq phComb (BitVec.ofNat 6 k.val) st)) :
    val5 s.sb = (val4 s.b).setWidth 320 <<< k.val := by
  have hv := h (hs ▸ seqLegal_of_encode hi) (hs ▸ seqPhase_mkSeq ..)
  rwa [hs, seqK_mkSeq, BitVec.toNat_ofNat, Nat.mod_eq_of_lt k.isLt] at hv

/-- `CINIT` begins the comb phase with `SB = B` (R101). -/
theorem shiftInv_cinit (s : State) :
    ShiftInv (((s.setC zeroWords).setSb (initShift s.b)).setSeq seqComb) :=
  shiftInv_at (k := 0) rfl (by simp [val5_initShift])

/-- `FOLD` keeps `B`, the shift buffer and the bit position (R102). -/
theorem ShiftInv.fold {k : Fin 64} {j : Fin 4} (h : ShiftInv s)
    (hs : s.seq = mkSeq phComb (BitVec.ofNat 6 k.val) (BitVec.ofNat 3 j.val)) (x : W8) :
    ShiftInv ((s.setC x).setSeq (seqAfterFold k j)) :=
  shiftInv_at (k := BitVec.ofNat 6 k.val) rfl
    (by simpa [Nat.mod_eq_of_lt k.isLt] using h.value (i := .fold k j) hs rfl)

/-- `SHL1` doubles the shift buffer and moves on to the next bit position, or out of the comb phase
(R103). -/
theorem ShiftInv.shl1 {k : Fin 64} (h : ShiftInv s)
    (hs : s.seq = mkSeq phComb (BitVec.ofNat 6 k.val) 4) :
    ShiftInv ((s.setSb (shl1Words s.sb)).setSeq (seqAfterShl1 k)) := by
  by_cases hk : k.val ≤ 62
  · have hv := h.value (i := .shl1 k) hs rfl
    refine shiftInv_at (seqAfterShl1_of_le hk) ?_
    simp [val5_shl1Words, hv, BitVec.shiftLeft_add, Nat.mod_eq_of_lt (show k.val + 1 < 64 by omega)]
  · refine .of_not_comb ?_
    rw [State.setSeq_seq, seqAfterShl1_of_not_le hk, seqPhase_mkSeq]
    decide

/-- Every operation keeps R23, a micro-operation performed from its own word. -/
theorem ShiftInv.effect {i : Instr} (h : ShiftInv s) (hi : ∀ w, encode i = .seq w → s.seq = w)
    (hx : Effect s i t) : ShiftInv t := by
  cases hx with
  | wait | hnop => exact h
  | resrd | statrd => exact h.of_same rfl rfl rfl
  | opwrA | opwrB => exact h.of_same (by simp) (by simp) (by simp)
  | cinit => exact shiftInv_cinit s
  | fold k j => exact h.fold (hi _ rfl) _
  | shl1 k => exact h.shl1 (hi _ rfl)
  | rfold ss =>
    exact .of_not_comb (by rcases seqPhase_seqAfterRfold ss with hp | hp <;> simp [hp] <;> decide)
  | chkFail | reset => exact .of_not_comb (by simp; decide)
  | chkPass | packa | packb | unpack | fin | start =>
    exact .of_not_comb (by rw [State.setSeq_seq]; decide)

/-- Settles O29: R23 holds after the operation that the step performed. -/
theorem stepKeepsShiftInv : Obligations.StepKeepsShiftInv := by
  intro s t h hstep
  obtain ⟨i, -, hx, hi⟩ := step_next_effect hstep
  exact ShiftInv.effect (s := advance s) h hi hx

end Sys2Proof.Safety

/-! ## The comb's partial products (R105, R107) -/

namespace Sys2Proof.Safety
open Sys2Proof.Machine

/-- XOR of `b * 2^n` over the selected `n` below a bound: the common form of R105's partial product
and R107's product. -/
def selectXor (b : BitVec 256) (sel : Nat → Bool) : Nat → BitVec 512
  | 0 => 0
  | m + 1 => selectXor b sel m ^^^ (if sel m then b.setWidth 512 <<< m else 0)

/-- Bit `n` of operand A has been folded when the comb is at position `k`, word `j` (R105). -/
def foldedBit (a : BitVec 256) (k j n : Nat) : Bool :=
  a.getLsbD n && (n % 64 < k || (n % 64 == k && n / 64 < j))

theorem clmulBelow_eq_selectXor (a b : BitVec 256) (m : Nat) :
    clmulBelow a b m = selectXor b a.getLsbD m := by
  induction m with
  | zero => rfl
  | succ m ih => rw [clmulBelow, selectXor, ih]

theorem foldl_eq_selectXor (b : BitVec 256) (sel : Nat → Bool) (m : Nat) :
    (List.range m).foldl (fun acc n => if sel n then acc ^^^ (b.setWidth 512 <<< n) else acc) 0 =
      selectXor b sel m := by
  induction m with
  | zero => rfl
  | succ m ih =>
    rw [List.range_succ, List.foldl_append, ih, selectXor, List.foldl_cons, List.foldl_nil]
    split <;> simp

theorem partialProduct_eq_selectXor (a b : BitVec 256) (k j : Nat) :
    partialProduct a b k j = selectXor b (foldedBit a k j) 256 :=
  foldl_eq_selectXor b (foldedBit a k j) 256

section
variable {b : BitVec 256} {p q : Nat → Bool} {m : Nat}

theorem selectXor_congr (h : ∀ n < m, p n = q n) : selectXor b p m = selectXor b q m := by
  induction m with
  | zero => rfl
  | succ m ih => rw [selectXor, selectXor, ih fun n hn => h n (by omega), h m (by omega)]

theorem selectXor_none (h : ∀ n < m, p n = false) : selectXor b p m = 0 := by
  induction m with
  | zero => rfl
  | succ m ih => rw [selectXor, ih fun n hn => h n (by omega), h m (by omega)]; simp

/-- One more index considered. -/
theorem selectXor_insert {i : Nat} (hi : i < m) (hp : p i = false)
    (h : ∀ n < m, n ≠ i → q n = p n) :
    selectXor b q m = selectXor b p m ^^^ (if q i then b.setWidth 512 <<< i else 0) := by
  induction m with
  | zero => omega
  | succ m ih =>
    rw [selectXor, selectXor]
    by_cases hm : i = m
    · subst hm
      rw [selectXor_congr fun n hn => h n (by omega) (by omega), hp]
      exact congrArg (· ^^^ _) BitVec.xor_zero.symm
    · rw [ih (by omega) fun n hn => h n (by omega), h m (by omega) (Ne.symm hm), BitVec.xor_assoc,
        BitVec.xor_assoc, BitVec.xor_comm (if q i then _ else _)]

end

section
variable (a b : BitVec 256)

/-- Nothing is folded at the start of the comb phase. -/
theorem partialProduct_start : partialProduct a b 0 0 = 0 := by
  rw [partialProduct_eq_selectXor]
  exact selectXor_none fun n _ => by simp [foldedBit]

/-- `FOLD k, j` adds the term of bit `k` of word `j`. -/
theorem partialProduct_fold (k : Fin 64) (j : Fin 4) :
    partialProduct a b k (j + 1) = partialProduct a b k j ^^^
      (if a.getLsbD (64 * j + k) then b.setWidth 512 <<< (64 * j.val + k.val) else 0) := by
  have hmod : (64 * j.val + k.val) % 64 = k := by omega
  have hdiv : (64 * j.val + k.val) / 64 = j := by omega
  have hnew : foldedBit a k (j + 1) (64 * j + k) = a.getLsbD (64 * j + k) := by
    simp [foldedBit, hmod, hdiv]
  rw [partialProduct_eq_selectXor, partialProduct_eq_selectXor,
    selectXor_insert (p := foldedBit a k j) (i := 64 * j.val + k.val) (by omega), hnew]
  · simp [foldedBit, hmod, hdiv]
  · intro n _ hn
    unfold foldedBit
    congr 1
    rw [Bool.eq_iff_iff]
    simp
    omega

/-- After the four words of a bit position the next position begins. -/
theorem partialProduct_next (k : Nat) :
    partialProduct a b k 4 = partialProduct a b (k + 1) 0 := by
  rw [partialProduct_eq_selectXor, partialProduct_eq_selectXor]
  refine selectXor_congr fun n hn => ?_
  unfold foldedBit
  congr 1
  rw [Bool.eq_iff_iff]
  simp
  omega

/-- After the last position the product is complete. -/
theorem partialProduct_end : partialProduct a b 64 0 = clmulBelow a b 256 := by
  rw [partialProduct_eq_selectXor, clmulBelow_eq_selectXor]
  refine selectXor_congr fun n hn => ?_
  have : n % 64 < 64 := by omega
  simp [foldedBit, this]

end

/-- `FOLD k, j` on the accumulator as one value (R105). -/
theorem val8_foldWords (p : W8) (sb : W5) (x : Word) (k : Fin 64) (j : Fin 4) :
    val8 (foldWords p sb (foldMask x k) j) = val8 p ^^^
      (if x.getLsbD k then (val5 sb).setWidth 512 <<< (64 * j.val) else 0) := by
  refine eq_of_word_bits (m := 8) fun q r hq hr => ?_
  rw [getLsbD_val8_word _ _ _ hq hr, BitVec.getLsbD_xor, getLsbD_val8_word _ _ _ hq hr,
    getElem_foldWords, BitVec.getLsbD_xor, foldMask_eq]
  congr 1
  cases x.getLsbD k with
  | false =>
    have masked : foldTerm sb 0 j ⟨q, hq⟩ = 0 := by
      unfold foldTerm
      split <;> simp
    simpa using congrArg (fun w : Word => w.getLsbD r) masked
  | true =>
    simp only [if_true, BitVec.getLsbD_shiftLeft, BitVec.getLsbD_setWidth]
    by_cases hw : j.val ≤ q ∧ q ≤ j.val + 4
    · have hword : foldTerm sb (BitVec.allOnes 64) j ⟨q, hq⟩ = sb[q - j.val] := by
        simp only [foldTerm, hw, dif_pos, BitVec.and_allOnes, and_self]
      rw [hword, show 64 * q + r - 64 * j.val = 64 * (q - j.val) + r by omega,
        getLsbD_val5_word _ _ _ (by omega) hr]
      have h1 : 64 * q + r < 512 := by omega
      have h2 : ¬64 * q + r < 64 * j.val := by omega
      have h3 : 64 * (q - j.val) + r < 512 := by omega
      simp only [h1, h2, h3, decide_true, decide_false, Bool.not_false, Bool.true_and]
    · rw [foldTerm_outside _ _ _ _ (show q < j.val ∨ j.val + 4 < q by omega)]
      rcases (show q < j.val ∨ j.val + 4 < q by omega) with h | h
      · simp [show 64 * q + r < 64 * j.val by omega]
      · simp [BitVec.getLsbD_of_ge (val5 sb) (64 * q + r - 64 * j.val) (by omega)]

end Sys2Proof.Safety

/-! ## The reducer keeps the residue (R121 to R126) -/

namespace Sys2Proof.Safety
open Sys2Proof.Machine

/-- The product of a value with `f`, as shifts (R2). -/
def timesF {w : Nat} (x : BitVec w) : BitVec w :=
  x <<< 256 ^^^ x <<< 10 ^^^ x <<< 5 ^^^ x <<< 2 ^^^ x

theorem xor_interleave {w : Nat} (a a' b b' c c' d d' e e' : BitVec w) :
    (a ^^^ a') ^^^ (b ^^^ b') ^^^ (c ^^^ c') ^^^ (d ^^^ d') ^^^ (e ^^^ e') =
      (a ^^^ b ^^^ c ^^^ d ^^^ e) ^^^ (a' ^^^ b' ^^^ c' ^^^ d' ^^^ e') := by
  ac_rfl

theorem timesF_xor {w : Nat} (x y : BitVec w) : timesF (x ^^^ y) = timesF x ^^^ timesF y := by
  simp only [timesF, BitVec.shiftLeft_xor_distrib]
  exact xor_interleave ..

/-- `X^n * f` is the multiple of `f` that the division adds at bit `n`. -/
theorem timesF_one_shiftLeft (n : Nat) : timesF (1#512 <<< n) = fBits <<< n := by
  have hf : fBits = timesF 1#512 := by decide +kernel
  rw [hf]
  simp only [timesF, BitVec.shiftLeft_xor_distrib, ← BitVec.shiftLeft_add, Nat.add_comm n]

/-- Bit `256 + n` of a multiple by a value of degree at most `n` is the value's top bit. -/
theorem getLsbD_timesF_top {x : BitVec 512} {n : Nat} (hn : n < 256)
    (hx : ∀ m > n, x.getLsbD m = false) : (timesF x).getLsbD (256 + n) = x.getLsbD n := by
  simp [timesF, BitVec.getLsbD_shiftLeft, hx (256 + n - 10) (by omega),
    hx (256 + n - 5) (by omega), hx (256 + n - 2) (by omega), hx (256 + n) (by omega)]
  omega

theorem remBelow_xor (n : Nat) (p q : BitVec 512) :
    remBelow n (p ^^^ q) = remBelow n p ^^^ remBelow n q := by
  induction n generalizing p q with
  | zero => rfl
  | succ n ih =>
    rw [remBelow, remBelow, remBelow, ← ih, BitVec.getLsbD_xor]
    congr 1
    cases p.getLsbD (256 + n) <;> cases q.getLsbD (256 + n)
    · rfl
    · exact BitVec.xor_assoc ..
    · exact (BitVec.xor_assoc ..).trans ((congrArg _ (BitVec.xor_comm ..)).trans
        (BitVec.xor_assoc ..).symm)
    · change p ^^^ q = p ^^^ fBits <<< n ^^^ (q ^^^ fBits <<< n)
      rw [BitVec.xor_comm q, BitVec.xor_assoc, ← BitVec.xor_assoc (fBits <<< n), BitVec.xor_self]
      exact congrArg _ BitVec.zero_xor.symm

/-- The division leaves nothing of a multiple of `f`. -/
theorem remBelow_timesF {n : Nat} (hn : n ≤ 256) {x : BitVec 512}
    (hx : ∀ m ≥ n, x.getLsbD m = false) : remBelow n (timesF x) = 0 := by
  induction n generalizing x with
  | zero =>
    have h0 : x = 0 := BitVec.eq_of_getLsbD_eq fun i _ => by simp [hx i]
    rw [h0]; decide +kernel
  | succ n ih =>
    rw [remBelow, getLsbD_timesF_top hn hx]
    cases hb : x.getLsbD n with
    | false =>
      exact ih (by omega) fun m hm => by
        rcases Nat.eq_or_lt_of_le hm with rfl | hm
        · exact hb
        · exact hx m hm
    | true =>
      rw [if_pos rfl, ← timesF_one_shiftLeft, ← timesF_xor]
      refine ih (by omega) fun m hm => ?_
      rw [BitVec.getLsbD_xor, BitVec.getLsbD_shiftLeft, BitVec.getLsbD_one]
      rcases Nat.eq_or_lt_of_le hm with rfl | hm
      · simp [hb, show n < 512 by omega]
      · simp [hx m hm, show m - n ≠ 0 by omega]

/-- The division leaves a value of degree below 256 as it is. -/
theorem remBelow_of_small (n : Nat) {p : BitVec 512} (hp : ∀ m ≥ 256, p.getLsbD m = false) :
    remBelow n p = p := by
  induction n with
  | zero => rfl
  | succ n ih => rw [remBelow, hp _ (by omega)]; exact ih

/-- A word at place `i`, shifted by `d`, lies in the words `i` and `i + 1`. -/
theorem getLsbD_word_shiftLeft (t : Word) (i d : Nat) {q r : Nat} (hq : q < 8) (hr : r < 64)
    (hd : d < 64) :
    (t.setWidth 512 <<< (64 * i) <<< d).getLsbD (64 * q + r) =
      if q = i then (t <<< d).getLsbD r
      else if q = i + 1 then (t >>> (64 - d)).getLsbD r else false := by
  have h512 : 64 * q + r < 512 := by omega
  rw [← BitVec.shiftLeft_add, BitVec.getLsbD_shiftLeft, BitVec.getLsbD_setWidth]
  by_cases hi : q = i
  · subst hi
    rw [if_pos rfl, BitVec.getLsbD_shiftLeft, show 64 * q + r - (64 * q + d) = r - d by omega]
    simp [h512, hr, show r - d < 512 by omega]
  rw [if_neg hi]
  by_cases hi' : q = i + 1
  · subst hi'
    rw [if_pos rfl, BitVec.getLsbD_ushiftRight,
      show 64 * (i + 1) + r - (64 * i + d) = 64 - d + r by omega]
    simp [h512, show ¬64 * (i + 1) + r < 64 * i + d by omega, show 64 - d + r < 512 by omega]
  rw [if_neg hi']
  rcases Nat.lt_or_gt_of_ne hi with h | h
  · simp [show 64 * q + r < 64 * i + d by omega]
  · simp [BitVec.getLsbD_of_ge t (64 * q + r - (64 * i + d)) (by omega)]

/-- `t * X^(64 ss) * f`, word by word: what `RFOLD` adds to the words `ss` and `ss + 1`, and
the word it folds. -/
theorem getLsbD_timesF_word (t : Word) (ss : Fin 4) {q r : Nat} (hq : q < 8) (hr : r < 64) :
    (timesF (t.setWidth 512 <<< (64 * ss.val))).getLsbD (64 * q + r) =
      if q = ss.val + 4 then t.getLsbD r else (rfoldTerm t ss ⟨q, hq⟩).getLsbD r := by
  have place (d : Nat) (hd : d < 64) := getLsbD_word_shiftLeft t ss.val d hq hr hd
  have top : t.setWidth 512 <<< (64 * ss.val) <<< 256 =
      t.setWidth 512 <<< (64 * (ss.val + 4)) <<< 0 := by
    rw [← BitVec.shiftLeft_add, ← BitVec.shiftLeft_add]
    congr 1
  have self := place 0 (by omega)
  rw [BitVec.shiftLeft_zero] at self
  simp only [timesF, BitVec.getLsbD_xor, top, getLsbD_word_shiftLeft t _ 0 hq hr (by omega),
    place 10 (by omega), place 5 (by omega), place 2 (by omega), self]
  unfold rfoldTerm
  have out : t >>> (64 - 0) = 0 := BitVec.ushiftRight_eq_zero le_rfl
  simp only [out, BitVec.shiftLeft_zero, BitVec.ofNat_eq_ofNat, BitVec.getLsbD_zero, ite_self]
  by_cases h4 : q = ss.val + 4
  · simp [h4]
  by_cases h0 : q = ss.val
  · simp only [h0, if_neg (show ss.val ≠ ss.val + 4 by omega), if_true, lowTerms,
      BitVec.getLsbD_xor, Bool.false_xor, Bool.xor_assoc, Bool.xor_comm]
  by_cases h1 : q = ss.val + 1
  · simp only [h1, if_neg (show ss.val + 1 ≠ ss.val by omega),
      if_neg (show ss.val + 1 ≠ ss.val + 4 by omega), if_true, highTerms, BitVec.getLsbD_xor,
      Bool.false_xor, Bool.xor_assoc, Bool.xor_comm, Nat.reduceSub]
  · simp only [h0, h1, h4, if_false, Bool.false_xor, BitVec.getLsbD_zero]

theorem getElem_lowPart (p : W8) (m n : Nat) (hn : n < 8) :
    (lowPart p m)[n] = if n ≤ m then p[n] else 0 := by
  simp [lowPart]

/-- `RFOLD` replaces the word it folds by a congruent value: the two differ by a multiple of `f`
(R123, R124). -/
theorem val8_lowPart_rfoldWords (p : W8) (ss : Fin 4) :
    val8 (lowPart (rfoldWords p ss) (ss.val + 3)) = val8 (lowPart p (ss.val + 4)) ^^^
      timesF (p[ss.val + 4].setWidth 512 <<< (64 * ss.val)) := by
  refine eq_of_word_bits (m := 8) fun q r hq hr => ?_
  rw [getLsbD_val8_word _ _ _ hq hr, BitVec.getLsbD_xor, getLsbD_val8_word _ _ _ hq hr,
    getLsbD_timesF_word _ _ hq hr, getElem_lowPart, getElem_lowPart, getElem_rfoldWords]
  rcases Nat.lt_trichotomy q (ss.val + 4) with h | rfl | h
  · rw [if_pos (by omega), if_pos (by omega), if_neg (by omega), BitVec.getLsbD_xor]
  · rw [if_neg (by omega), if_pos le_rfl, if_pos rfl]
    simp
  · rw [if_neg (by omega), if_neg (by omega), if_neg (by omega),
      rfoldTerm_other _ _ _ (show q ≠ ss.val by omega) (show q ≠ ss.val + 1 by omega)]
    simp

/-- `RFOLD` keeps the remainder of the words still to fold (R124). -/
theorem reduce512_lowPart_rfoldWords (p : W8) (ss : Fin 4) :
    reduce512 (lowPart (rfoldWords p ss) (ss.val + 3)) = reduce512 (lowPart p (ss.val + 4)) := by
  have hmul : remBelow 256 (timesF (p[ss.val + 4].setWidth 512 <<< (64 * ss.val))) = 0 := by
    refine remBelow_timesF le_rfl fun m hm => ?_
    rw [BitVec.getLsbD_shiftLeft, BitVec.getLsbD_setWidth,
      BitVec.getLsbD_of_ge p[ss.val + 4] _ (by omega)]
    simp
  unfold reduce512
  rw [val8_lowPart_rfoldWords, remBelow_xor, hmul]
  exact congrArg (fun x => split4 (BitVec.setWidth 256 x)) BitVec.xor_zero

/-- The low four words alone are their own remainder (R126). -/
theorem reduce512_lowPart_three (p : W8) : reduce512 (lowPart p 3) = lowWords p := by
  have small (m : Nat) (hm : m ≥ 256) : (val8 (lowPart p 3)).getLsbD m = false := by
    by_cases h : m < 512
    · rw [getLsbD_val8 _ _ h, getElem_lowPart, if_neg (by omega)]
      simp
    · exact BitVec.getLsbD_of_ge _ _ (by omega)
  apply val4_injective
  rw [reduce512, remBelow_of_small 256 small, val4_split4]
  refine eq_of_word_bits (m := 4) fun q r hq hr => ?_
  rw [BitVec.getLsbD_setWidth, getLsbD_val8_word _ _ _ (by omega) hr,
    getLsbD_val4_word _ _ _ hq hr, getElem_lowPart, if_pos (by omega), getElem_lowWords]
  simp
  omega

end Sys2Proof.Safety

/-! ## The registers along a call -/

namespace Sys2Proof.Safety
open Sys2Proof.Machine

variable {s t : State}

/-! ### The accumulator in the comb phase (R105) -/

/-- Outside the comb phase nothing is claimed of the partial product. -/
theorem CombInv.of_not_comb (h : seqPhase t.seq ≠ phComb) : CombInv t :=
  fun _ hp => absurd hp h

/-- At a comb word of position `k` and step `st`. -/
theorem combInv_at {k : BitVec 6} {st : BitVec 3} (h : t.seq = mkSeq phComb k st)
    (hv : val8 t.c = partialProduct (val4 t.a) (val4 t.b) k.toNat st.toNat) : CombInv t := by
  intro _ _
  rw [h, seqK_mkSeq, seqS_mkSeq, hv]

/-- R105 at the word of a micro-operation of the comb phase. -/
theorem CombInv.value {i : Instr} {k : Fin 64} {st : BitVec 3} (h : CombInv s)
    (hs : s.seq = mkSeq phComb (BitVec.ofNat 6 k.val) st)
    (hi : encode i = .seq (mkSeq phComb (BitVec.ofNat 6 k.val) st)) :
    val8 s.c = partialProduct (val4 s.a) (val4 s.b) k.val st.toNat := by
  have hv := h (hs ▸ seqLegal_of_encode hi) (hs ▸ seqPhase_mkSeq ..)
  rwa [hs, seqK_mkSeq, seqS_mkSeq, BitVec.toNat_ofNat, Nat.mod_eq_of_lt k.isLt] at hv

theorem val8_zeroWords : val8 zeroWords = 0 := by decide +kernel

/-- `CINIT` begins with an empty sum. -/
theorem combInv_cinit (s : State) :
    CombInv (((s.setC zeroWords).setSb (initShift s.b)).setSeq seqComb) := by
  refine combInv_at (k := 0) (st := 0) rfl ?_
  exact val8_zeroWords.trans (partialProduct_start _ _).symm

/-- The shift buffer is wide enough for 63 shifts: `B * 2^k` loses no bit (R23). -/
theorem setWidth_shiftLeft_setWidth (b : BitVec 256) {k : Nat} (m : Nat) (hk : k < 64) :
    (b.setWidth 320 <<< k).setWidth 512 <<< m = b.setWidth 512 <<< (m + k) := by
  rw [Nat.add_comm, BitVec.shiftLeft_add]
  congr 1
  apply BitVec.eq_of_getLsbD_eq
  intro n hn
  simp only [BitVec.getLsbD_setWidth, BitVec.getLsbD_shiftLeft, hn]
  by_cases h : n < 320
  · simp [h, show n - k < 320 by omega, show n - k < 512 by omega]
  · simp [h, BitVec.getLsbD_of_ge b (n - k) (by omega)]

/-- `FOLD k, j` adds the term of bit `k` of word `j`, which the shift buffer holds by R23. -/
theorem CombInv.fold {k : Fin 64} {j : Fin 4} (h : CombInv s) (hsh : ShiftInv s)
    (hs : s.seq = mkSeq phComb (BitVec.ofNat 6 k.val) (BitVec.ofNat 3 j.val)) :
    CombInv ((s.setC (foldWords s.c s.sb (foldMask s.a[j] k) j)).setSeq (seqAfterFold k j)) := by
  have hc := h.value (i := .fold k j) hs rfl
  have hsb := hsh.value (i := .fold k j) hs rfl
  rw [BitVec.toNat_ofNat, Nat.mod_eq_of_lt (by omega)] at hc
  refine combInv_at (k := BitVec.ofNat 6 k.val) (st := BitVec.ofNat 3 (j.val + 1)) rfl ?_
  rw [BitVec.toNat_ofNat, BitVec.toNat_ofNat, Nat.mod_eq_of_lt k.isLt,
    Nat.mod_eq_of_lt (show j.val + 1 < 2 ^ 3 by omega)]
  have hbit : (val4 s.a).getLsbD (64 * j.val + k.val) = s.a[j].getLsbD k :=
    getLsbD_val4_word s.a j k j.isLt k.isLt
  calc val8 (foldWords s.c s.sb (foldMask s.a[j] k) j)
    _ = partialProduct (val4 s.a) (val4 s.b) k j ^^^ (if s.a[j].getLsbD k then
          ((val4 s.b).setWidth 320 <<< k.val).setWidth 512 <<< (64 * j.val) else 0) := by
      rw [val8_foldWords, hc, hsb]
    _ = partialProduct (val4 s.a) (val4 s.b) k (j + 1) := by
      rw [partialProduct_fold, hbit, setWidth_shiftLeft_setWidth _ _ k.isLt]

/-- `SHL1` goes on to the next position with the same sum. -/
theorem CombInv.shl1 {k : Fin 64} (h : CombInv s)
    (hs : s.seq = mkSeq phComb (BitVec.ofNat 6 k.val) 4) :
    CombInv ((s.setSb (shl1Words s.sb)).setSeq (seqAfterShl1 k)) := by
  by_cases hk : k.val ≤ 62
  · have hc := h.value (i := .shl1 k) hs rfl
    refine combInv_at (seqAfterShl1_of_le hk) ?_
    rw [BitVec.toNat_ofNat, Nat.mod_eq_of_lt (show k.val + 1 < 2 ^ 6 by omega)]
    exact hc.trans (partialProduct_next ..)
  · refine .of_not_comb ?_
    rw [State.setSeq_seq, seqAfterShl1_of_not_le hk, seqPhase_mkSeq]
    decide

/-- The comb phase ends with the product in the accumulator (R107). -/
theorem CombInv.product {k : Fin 64} (h : CombInv s) (hk : ¬k.val ≤ 62)
    (hs : s.seq = mkSeq phComb (BitVec.ofNat 6 k.val) 4) : s.c = clmul256 s.a s.b := by
  have hc := h.value (i := .shl1 k) hs rfl
  apply val8_injective
  rw [clmul256, val8_split8, hc, show k.val = 63 by omega, ← partialProduct_end]
  exact partialProduct_next _ _ 63

/-- All eight words are the words up to the seventh. -/
theorem lowPart_seven (p : W8) : lowPart p 7 = p := by
  apply Vector.ext
  intro n hn
  rw [getElem_lowPart, if_pos (by omega)]

/-! ### The whole invariant -/

/-- Nothing is claimed of a state without a call. -/
theorem CallInv.of_not_busy (h : t.busy = false) : CallInv t := by
  constructor <;> intros <;> simp_all

/-- A step that writes no register the invariant speaks of keeps it. -/
theorem CallInv.of_same (h : CallInv s) (hopa : t.opa = s.opa) (hopb : t.opb = s.opb)
    (ha : t.a = s.a) (hb : t.b = s.b) (hsb : t.sb = s.sb) (hc : t.c = s.c) (hres : t.res = s.res)
    (hbusy : t.busy = s.busy) (hseq : t.seq = s.seq) : CallInv t where
  a_packed := by rw [hbusy, hseq, ha, hopa]; exact h.a_packed
  b_packed := by rw [hbusy, hseq, hb, hopb]; exact h.b_packed
  shift := by rw [hbusy]; exact fun hc => (h.shift hc).of_same hsb hb hseq
  comb := by unfold CombInv; rw [hbusy, hseq, ha, hb, hc]; exact h.comb
  product := by rw [hbusy, hseq, ha, hb, hc]; exact h.product
  reducing := by rw [hbusy, hseq, ha, hb, hc]; exact h.reducing
  reduced := by rw [hbusy, hseq, ha, hb, hc]; exact h.reduced
  unpacked := by rw [hbusy, hseq, hres, hopa, hopb]; exact h.unpacked

/-! What the invariant claims, phase by phase. -/

theorem seq_ne_of_phase {w : BitVec 12} {ph ph' : BitVec 3} (h : seqPhase w = ph) (hne : ph ≠ ph')
    (k : BitVec 6) (st : BitVec 3) : w ≠ mkSeq ph' k st := by
  rintro rfl
  exact hne (h.symm.trans (seqPhase_mkSeq ..))

theorem callInv_load (hp : seqPhase t.seq = phLoad)
    (ha : t.seq ≠ seqChk → t.seq ≠ seqPackA → t.a = pack t.opa)
    (hb : t.seq ≠ seqChk → t.seq ≠ seqPackA → t.seq ≠ seqPackB → t.b = pack t.opb) :
    CallInv t where
  a_packed := fun _ => ha
  b_packed := fun _ => hb
  shift := fun _ => .of_not_comb (by rw [hp]; decide)
  comb := fun _ => .of_not_comb (by rw [hp]; decide)
  product := fun _ h => absurd h (seq_ne_of_phase hp (by decide) _ _)
  reducing := fun _ _ h => absurd h (seq_ne_of_phase hp (by decide) _ _)
  reduced := fun _ h => absurd (hp.symm.trans h) (by decide)
  unpacked := fun _ h => absurd h (seq_ne_of_phase hp (by decide) _ _)

theorem callInv_comb (hp : seqPhase t.seq = phComb) (ha : t.a = pack t.opa) (hb : t.b = pack t.opb)
    (hsh : ShiftInv t) (hco : CombInv t) : CallInv t where
  a_packed := fun _ _ _ => ha
  b_packed := fun _ _ _ _ => hb
  shift := fun _ => hsh
  comb := fun _ => hco
  product := fun _ h => absurd h (seq_ne_of_phase hp (by decide) _ _)
  reducing := fun _ _ h => absurd h (seq_ne_of_phase hp (by decide) _ _)
  reduced := fun _ h => absurd (hp.symm.trans h) (by decide)
  unpacked := fun _ h => absurd h (seq_ne_of_phase hp (by decide) _ _)

theorem ofNat_step_inj (n m : Fin 4) : BitVec.ofNat 3 n.val = BitVec.ofNat 3 m.val → n = m := by
  revert n m; decide

theorem callInv_red {n : Fin 4} (hs : t.seq = mkSeq phRed 0 (BitVec.ofNat 3 n.val))
    (ha : t.a = pack t.opa) (hb : t.b = pack t.opb) (hprod : n = 3 → t.c = clmul256 t.a t.b)
    (hred : reduce512 (lowPart t.c (n.val + 4)) = reduce512 (clmul256 t.a t.b)) : CallInv t := by
  have hp : seqPhase t.seq = phRed := by rw [hs, seqPhase_mkSeq]
  exact {
    a_packed := fun _ _ _ => ha
    b_packed := fun _ _ _ _ => hb
    shift := fun _ => .of_not_comb (by rw [hp]; decide)
    comb := fun _ => .of_not_comb (by rw [hp]; decide)
    product := fun _ h => hprod (ofNat_step_inj n 3 (mkSeq_inj.mp (hs.symm.trans h)).2.2)
    reducing := fun m _ h => ofNat_step_inj n m (mkSeq_inj.mp (hs.symm.trans h)).2.2 ▸ hred
    reduced := fun _ h => absurd (hp.symm.trans h) (by decide)
    unpacked := fun _ h => absurd h (seq_ne_of_phase hp (by decide) _ _) }

theorem callInv_store (hp : seqPhase t.seq = phStore) (ha : t.a = pack t.opa)
    (hb : t.b = pack t.opb) (hred : lowWords t.c = reduce512 (clmul256 t.a t.b))
    (hres : t.seq = seqFin → t.res = mulBuf t.opa t.opb) : CallInv t where
  a_packed := fun _ _ _ => ha
  b_packed := fun _ _ _ _ => hb
  shift := fun _ => .of_not_comb (by rw [hp]; decide)
  comb := fun _ => .of_not_comb (by rw [hp]; decide)
  product := fun _ h => absurd h (seq_ne_of_phase hp (by decide) _ _)
  reducing := fun _ _ h => absurd h (seq_ne_of_phase hp (by decide) _ _)
  reduced := fun _ _ => hred
  unpacked := fun _ => hres

/-! The micro-operations of a call. -/

/-- From `CINIT` on both operands are packed. -/
theorem CallInv.packed (h : CallInv s) (hb : s.busy = true) (h1 : s.seq ≠ seqChk)
    (h2 : s.seq ≠ seqPackA) (h3 : s.seq ≠ seqPackB) : s.a = pack s.opa ∧ s.b = pack s.opb :=
  ⟨h.a_packed hb h1 h2, h.b_packed hb h1 h2 h3⟩

/-- Past the load phase both operands are packed. -/
theorem CallInv.packed_of_phase (h : CallInv s) (hb : s.busy = true)
    (hp : seqPhase s.seq ≠ phLoad) : s.a = pack s.opa ∧ s.b = pack s.opb :=
  h.packed hb (seq_ne_of_phase rfl hp _ _) (seq_ne_of_phase rfl hp _ _)
    (seq_ne_of_phase rfl hp _ _)

theorem CallInv.packb (h : CallInv s) (hb : s.busy = true) (hs : s.seq = seqPackB) :
    CallInv ((s.setB (pack s.opb)).setSeq seqCinit) :=
  callInv_load (seqPhase_mkSeq ..)
    (fun _ _ => h.a_packed hb (by rw [hs]; decide) (by rw [hs]; decide))
    (fun _ _ _ => rfl)

theorem CallInv.cinit (h : CallInv s) (hb : s.busy = true) (hs : s.seq = seqCinit) :
    CallInv (((s.setC zeroWords).setSb (initShift s.b)).setSeq seqComb) := by
  obtain ⟨ha, hb⟩ := h.packed hb (by rw [hs]; decide) (by rw [hs]; decide) (by rw [hs]; decide)
  exact callInv_comb (seqPhase_mkSeq ..) ha hb (shiftInv_cinit s) (combInv_cinit s)

theorem CallInv.fold (h : CallInv s) (hb : s.busy = true) {k : Fin 64} {j : Fin 4}
    (hs : s.seq = mkSeq phComb (BitVec.ofNat 6 k.val) (BitVec.ofNat 3 j.val)) :
    CallInv ((s.setC (foldWords s.c s.sb (foldMask s.a[j] k) j)).setSeq (seqAfterFold k j)) := by
  obtain ⟨ha, hb'⟩ := h.packed_of_phase hb (by rw [hs, seqPhase_mkSeq]; decide)
  exact callInv_comb (seqPhase_mkSeq ..) ha hb' ((h.shift hb).fold hs _)
    ((h.comb hb).fold (h.shift hb) hs)

/-- `SHL1` goes on in the comb phase or, after the last position, hands the product to the
reducer. -/
theorem CallInv.shl1 (h : CallInv s) (hb : s.busy = true) {k : Fin 64}
    (hs : s.seq = mkSeq phComb (BitVec.ofNat 6 k.val) 4) :
    CallInv ((s.setSb (shl1Words s.sb)).setSeq (seqAfterShl1 k)) := by
  obtain ⟨ha, hb'⟩ := h.packed_of_phase hb (by rw [hs, seqPhase_mkSeq]; decide)
  by_cases hk : k.val ≤ 62
  · exact callInv_comb (by rw [State.setSeq_seq, seqAfterShl1_of_le hk, seqPhase_mkSeq]) ha hb'
      ((h.shift hb).shl1 hs) ((h.comb hb).shl1 hs)
  · have hc := (h.comb hb).product hk hs
    refine callInv_red (n := 3) (seqAfterShl1_of_not_le hk) ha hb' (fun _ => hc) ?_
    exact congrArg reduce512 ((lowPart_seven s.c).trans hc)

/-- `RFOLD` goes on to the next word down or, after the last, leaves the remainder. -/
theorem CallInv.rfold (h : CallInv s) (hb : s.busy = true) {ss : Fin 4}
    (hs : s.seq = mkSeq phRed 0 (BitVec.ofNat 3 ss.val)) :
    CallInv ((s.setC (rfoldWords s.c ss)).setSeq (seqAfterRfold ss)) := by
  obtain ⟨ha, hb'⟩ := h.packed_of_phase hb (by rw [hs, seqPhase_mkSeq]; decide)
  have hkeep : reduce512 (lowPart (rfoldWords s.c ss) (ss.val + 3)) =
      reduce512 (clmul256 s.a s.b) :=
    (reduce512_lowPart_rfoldWords s.c ss).trans (h.reducing ss hb hs)
  by_cases hss : 1 ≤ ss.val
  · refine callInv_red (n := ⟨ss.val - 1, by omega⟩) (if_pos hss) ha hb'
      (fun e => absurd (congrArg Fin.val e) (by simp; omega)) ?_
    rwa [show ss.val + 3 = ss.val - 1 + 4 by omega] at hkeep
  · obtain rfl : ss = 0 := by omega
    refine callInv_store (show seqPhase (seqAfterRfold 0) = phStore by decide) ha hb' ?_
      (fun e => absurd e (show seqAfterRfold 0 ≠ seqFin by decide))
    exact (reduce512_lowPart_three _).symm.trans hkeep

theorem CallInv.unpack (h : CallInv s) (hb : s.busy = true) (hs : s.seq = mkSeq phStore 0 0) :
    CallInv ((s.setBuffer .res (unpack (lowWords s.c))).setSeq seqFin) := by
  obtain ⟨ha, hb'⟩ := h.packed_of_phase hb (by rw [hs, seqPhase_mkSeq]; decide)
  have hred := h.reduced hb (by rw [hs, seqPhase_mkSeq])
  refine callInv_store (by simp [seqFin]) (by simpa using ha) (by simpa using hb')
    (by simpa using hred) fun _ => ?_
  simp [hred, ha, hb', mulBuf]

/-- Every operation keeps the invariant, a micro-operation performed from its own word. -/
theorem CallInv.effect {i : Instr} (h : CallInv s) (hctl : ControlInv s)
    (hi : ∀ w, encode i = .seq w → s.seq = w) (hx : Effect s i t) : CallInv t := by
  cases hx with
  | wait | hnop => exact h
  | resrd | statrd => exact h.of_same rfl rfl rfl rfl rfl rfl rfl rfl rfl
  | chkFail | fin | reset => exact .of_not_busy (by simp)
  | opwrA hb | opwrB hb => exact .of_not_busy (by simpa using hb)
  | start =>
    exact callInv_load (seqPhase_mkSeq ..) (fun hne => absurd rfl hne) (fun hne => absurd rfl hne)
  | chkPass =>
    exact callInv_load (seqPhase_mkSeq ..) (fun _ hne => absurd rfl hne)
      (fun _ hne => absurd rfl hne)
  | packa =>
    exact callInv_load (seqPhase_mkSeq ..) (fun _ _ => rfl) (fun _ _ hne => absurd rfl hne)
  | packb => exact h.packb (hctl.busy_of_seq (hi _ rfl) (by decide)) (hi _ rfl)
  | cinit => exact h.cinit (hctl.busy_of_seq (hi _ rfl) (by decide)) (hi _ rfl)
  | fold => exact h.fold (hctl.busy_of_seq (hi _ rfl) (by decide)) (hi _ rfl)
  | shl1 => exact h.shl1 (hctl.busy_of_seq (hi _ rfl) (by decide)) (hi _ rfl)
  | rfold => exact h.rfold (hctl.busy_of_seq (hi _ rfl) (by decide)) (hi _ rfl)
  | unpack => exact h.unpack (hctl.busy_of_seq (hi _ rfl) (by decide)) (hi _ rfl)

/-- Taking a turn off the list touches no register. -/
theorem CallInv.advance (h : CallInv s) : CallInv (advance s) :=
  h.of_same rfl rfl rfl rfl rfl rfl rfl rfl rfl

/-- Settles O30: the invariant holds after the operation that the step performed. -/
theorem stepKeepsCallInv : Obligations.StepKeepsCallInv := by
  intro s t hctl h hstep
  obtain ⟨i, -, hx, hi⟩ := step_next_effect hstep
  exact h.advance.effect hctl.advance hi hx

/-- Settles O26: no call is in progress after reset. -/
theorem resetMeetsInvariants : Obligations.ResetMeetsInvariants :=
  ⟨.of_idle rfl (by decide) rfl (by decide) (by decide) rfl, .of_not_comb (by decide),
    .of_not_busy rfl⟩

end Sys2Proof.Safety

/-! ## Two calls side by side (R35) -/

namespace Sys2Proof.Safety
open Sys2Proof.Machine

variable {s s' t t' : State}

/-- What two runs of the same turns have in common from the loading of the operands on: all that
steers them, and of each operand buffer the bytes appended so far. -/
structure SameShape (s s' : State) : Prop where
  turns : s'.turns = s.turns
  seq : s'.seq = s.seq
  busy : s'.busy = s.busy
  lena : s'.lena = s.lena
  lenb : s'.lenb = s.lenb
  opa : ∀ n : Fin 32, n.val < s.lena.toNat → memRead s' .opa n = memRead s .opa n
  opb : ∀ n : Fin 32, n.val < s.lenb.toNat → memRead s' .opb n = memRead s .opb n

/-- What the host observes of two states is the same: the flags, and the result while it is
valid. -/
structure SameSight (s s' : State) : Prop where
  done : s'.done = s.done
  err : s'.err = s.err
  res : s.resValid = true → s'.res = s.res

/-- Two states of a common shape, with the invariants of reachable states. -/
structure SameCall (s s' : State) : Prop extends SameShape s s' where
  control : ControlInv s
  control' : ControlInv s'
  call : CallInv s
  call' : CallInv s'

/-! ### Appending the same byte -/

theorem toNat_bumpLen_le (n : BitVec 6) : (bumpLen n).toNat ≤ n.toNat + 1 := by
  unfold bumpLen
  split
  · rw [BitVec.toNat_add]
    exact Nat.mod_le ..
  · omega

/-- A byte appended to two buffers that agree up to a common counter makes them agree up to the
next. -/
theorem memRead_appendByte_eq (o : Operand) (v : Byte) (hl : s'.len o = s.len o)
    (hp : ∀ n : Fin 32, n.val < (s.len o).toNat →
      memRead s' (operandSpace o) n = memRead s (operandSpace o) n)
    (n : Fin 32) (hn : n.val < (bumpLen (s.len o)).toNat) :
    memRead (appendByte s' o v) (operandSpace o) n =
      memRead (appendByte s o v) (operandSpace o) n := by
  have hle := toNat_bumpLen_le (s.len o)
  simp only [appendByte, memRead_setLen]
  by_cases he : (s.len o).toNat = n.val
  · rw [memRead_storeOperand_same s o v n he, memRead_storeOperand_same s' o v n (hl ▸ he)]
  · rw [memRead_storeOperand_other s o v _ n (.inr (Ne.symm he)),
      memRead_storeOperand_other s' o v _ n (.inr (hl ▸ Ne.symm he))]
    exact hp n (by omega)

/-- Operand buffers of 32 bytes are equal when all their bytes are. -/
theorem SameShape.buffers_eq (h : SameShape s s') (ha : s.lena = 32) (hb : s.lenb = 32) :
    s'.opa = s.opa ∧ s'.opb = s.opb := by
  constructor <;> apply Vector.ext <;> intro n hn
  · exact h.opa ⟨n, hn⟩ (by rw [ha]; exact hn)
  · exact h.opb ⟨n, hn⟩ (by rw [hb]; exact hn)

theorem SameShape.lengthsOk_eq (h : SameShape s s') : lengthsOk s' = lengthsOk s := by
  rw [lengthsOk, lengthsOk, h.lena, h.lenb]

/-! ### One operation -/

/-- A frame: the operand buffers and the counters. -/
structure SameOperands (s t : State) : Prop where
  lena : t.lena = s.lena
  lenb : t.lenb = s.lenb
  opa : t.opa = s.opa
  opb : t.opb = s.opb

/-- An operation that writes no operand buffer and no counter keeps the shape if it keeps what else
belongs to it. -/
theorem SameShape.of_same (h : SameShape s s') (hturns : t'.turns = t.turns)
    (hseq : t'.seq = t.seq) (hbusy : t'.busy = t.busy) (ho : SameOperands s t)
    (ho' : SameOperands s' t') : SameShape t t' where
  turns := hturns
  seq := hseq
  busy := hbusy
  lena := by rw [ho.lena, ho'.lena, h.lena]
  lenb := by rw [ho.lenb, ho'.lenb, h.lenb]
  opa := by simpa [memRead, State.buffer, ho.lena, ho.opa, ho'.opa] using h.opa
  opb := by simpa [memRead, State.buffer, ho.lenb, ho.opb, ho'.opb] using h.opb

/-- With the counters at 0 no byte counts. -/
theorem sameShape_of_cleared (hturns : t'.turns = t.turns) (hseq : t'.seq = t.seq)
    (hbusy : t'.busy = t.busy) (ha : t.lena = 0) (hb : t.lenb = 0) (ha' : t'.lena = 0)
    (hb' : t'.lenb = 0) : SameShape t t' where
  turns := hturns
  seq := hseq
  busy := hbusy
  lena := ha'.trans ha.symm
  lenb := hb'.trans hb.symm
  opa := fun n hn => absurd hn (by simp [ha])
  opb := fun n hn => absurd hn (by simp [hb])

/-- Every operation but `RESRD`, whose guard looks at `DONE` and `ERR`, is performed in both states
and keeps what they have in common. -/
theorem SameShape.effect {i : Instr} (h : SameShape s s') (hi : ∀ n, i ≠ .resrd n)
    (hx : Effect s i t) : ∃ t', Effect s' i t' ∧ SameShape t t' := by
  have ht := h.turns
  have hq := h.seq
  have hb := h.busy
  cases hx with
  | wait => exact ⟨_, .wait, h⟩
  | hnop => exact ⟨_, .hnop, h⟩
  | statrd =>
    exact ⟨_, .statrd, h.of_same (by simpa using ht) (by simpa using hq) (by simpa using hb)
      (by constructor <;> simp) (by constructor <;> simp)⟩
  | chkPass hl =>
    exact ⟨_, .chkPass (h.lengthsOk_eq.trans hl), h.of_same (by simpa using ht) (by simp)
      (by simpa using hb) (by constructor <;> simp) (by constructor <;> simp)⟩
  | packa | packb | cinit | fold | shl1 | rfold | unpack =>
    exact ⟨_, exec_eq_next_iff.mp rfl, h.of_same (by simpa using ht) (by simp) (by simpa using hb)
      (by constructor <;> simp) (by constructor <;> simp)⟩
  | start hn =>
    exact ⟨_, .start (hb.trans hn), h.of_same (by simpa using ht) (by simp) (by simp)
      (by constructor <;> simp) (by constructor <;> simp)⟩
  | chkFail hl =>
    exact ⟨_, .chkFail (h.lengthsOk_eq.trans hl), sameShape_of_cleared (by simpa using ht)
      (by simp) (by simp) (by simp) (by simp) (by simp) (by simp)⟩
  | fin | reset =>
    exact ⟨_, exec_eq_next_iff.mp rfl, sameShape_of_cleared (by simpa using ht) (by simp) (by simp)
      (by simp) (by simp) (by simp) (by simp)⟩
  | opwrA hn v =>
    refine ⟨_, .opwrA (hb.trans hn) v, ?_⟩
    exact {
      turns := by simpa using ht
      seq := by simpa using hq
      busy := by simpa using hb
      lena := by simp [h.lena]
      lenb := by simpa using h.lenb
      opa := by simpa [State.len, operandSpace] using memRead_appendByte_eq .a v h.lena h.opa
      opb := by simpa [memRead, State.buffer] using h.opb }
  | opwrB hn v =>
    refine ⟨_, .opwrB (hb.trans hn) v, ?_⟩
    exact {
      turns := by simpa using ht
      seq := by simpa using hq
      busy := by simpa using hb
      lena := by simpa using h.lena
      lenb := by simp [h.lenb]
      opa := by simpa [memRead, State.buffer] using h.opa
      opb := by simpa [State.len, operandSpace] using memRead_appendByte_eq .b v h.lenb h.opb }
  | resrd hv n => exact absurd rfl (hi n)

/-- The invariants come along. -/
theorem SameCall.effect {i : Instr} (h : SameCall s s') (hi : ∀ n, i ≠ .resrd n)
    (hw : ∀ w, encode i = .seq w → s.seq = w) (hx : Effect s i t) :
    ∃ t', Effect s' i t' ∧ SameCall t t' := by
  have hw' : ∀ w, encode i = .seq w → s'.seq = w := fun w hiw => h.seq.trans (hw w hiw)
  obtain ⟨t', hx', ht⟩ := h.toSameShape.effect hi hx
  exact ⟨t', hx', ht, h.control.effect hw hx, h.control'.effect hw' hx',
    h.call.effect h.control hw hx, h.call'.effect h.control' hw' hx'⟩

/-- A result that is not valid is not seen. -/
theorem sameSight_of_not_valid (hd : t'.done = t.done) (he : t'.err = t.err)
    (hv : t.resValid = false) : SameSight t t' :=
  ⟨hd, he, fun h => absurd h (by simp [hv])⟩

/-- At `FIN` the results are equal: each is the product of operands that are equal. -/
theorem SameCall.res_eq (h : SameCall s s') (hs : s.seq = seqFin) : s'.res = s.res := by
  have hb := h.control.busy_of_seq hs (by decide)
  obtain ⟨ha, hl⟩ := h.control.lens_ok hb (by rw [hs]; decide)
  obtain ⟨hopa, hopb⟩ := h.buffers_eq ha hl
  rw [h.call.unpacked hb hs, h.call'.unpacked (h.busy.trans hb) (h.seq.trans hs), hopa, hopb]

/-- A frame: the flags and the result that the host sees. -/
structure SameOutputs (s t : State) : Prop where
  done : t.done = s.done
  err : t.err = s.err
  res : t.res = s.res

/-- What writes no output shows the host nothing new. -/
theorem SameSight.of_same (h : SameSight s s') (ho : SameOutputs s t) (ho' : SameOutputs s' t') :
    SameSight t t' where
  done := by rw [ho.done, ho'.done, h.done]
  err := by rw [ho.err, ho'.err, h.err]
  res := by simpa [State.resValid, ho.done, ho.err, ho.res, ho'.res] using h.res

/-- Two performances of an operation keep the sight of the host the same; `START` makes it so. -/
theorem SameSight.effect {i : Instr} (hc : SameCall s s') (h : i ≠ .start → SameSight s s')
    (hi : ∀ n, i ≠ .resrd n) (hw : ∀ w, encode i = .seq w → s.seq = w) (hx : Effect s i t)
    (hx' : Effect s' i t') : SameSight t t' := by
  cases hx with
  | start | reset =>
    cases hx'
    exact sameSight_of_not_valid (by simp) (by simp) (by simp [State.resValid])
  | wait | hnop => cases hx'; exact h (by simp)
  | statrd | packa | packb | cinit | fold | shl1 | rfold | opwrA | opwrB =>
    cases hx'
    exact (h (by simp)).of_same (by constructor <;> simp) (by constructor <;> simp)
  | chkPass hl =>
    cases hx' with
    | chkPass => exact (h (by simp)).of_same (by constructor <;> simp) (by constructor <;> simp)
    | chkFail hl' => exact absurd (hl'.symm.trans hc.lengthsOk_eq) (by simp [hl])
  | chkFail hl =>
    cases hx' with
    | chkPass hl' => exact absurd (hl'.symm.trans hc.lengthsOk_eq) (by simp [hl])
    | chkFail => exact sameSight_of_not_valid (by simp) (by simp) (by simp [State.resValid])
  | unpack =>
    cases hx'
    have hb := hc.control.busy_of_seq (hw _ rfl) (by decide)
    have hd : s.done = false := by simpa [hb] using hc.control.not_busy_done
    have hs := h (by simp)
    exact sameSight_of_not_valid (by simpa using hs.done) (by simpa using hs.err)
      (by simp [State.resValid, hd])
  | fin =>
    cases hx'
    exact ⟨by simp, by simpa using (h (by simp)).err, fun _ => by simpa using hc.res_eq (hw _ rfl)⟩
  | resrd hv n => exact absurd rfl (hi n)

/-! ### One turn -/

theorem SameCall.advanced (h : SameCall s s') : SameCall (advance s) (advance s') where
  turns := congrArg List.tail h.turns
  seq := h.seq
  busy := h.busy
  lena := h.lena
  lenb := h.lenb
  opa := h.opa
  opb := h.opb
  control := h.control.advance
  control' := h.control'.advance
  call := h.call.advance
  call' := h.call'.advance

theorem SameCall.issued_eq (h : SameCall s s') : issued s' = issued s := by
  rw [issued, issued, h.turns, h.seq]

/-- A turn that is taken in one state is taken in the other, and the states keep what they have in
common. -/
theorem SameCall.step_both (h : SameCall s s') {i : Instr} {v : Turn} {rest : List Turn}
    (hs : s.turns = v :: rest) (hd : decode (issued s) = .ok i) (hi : ∀ n, i ≠ .resrd n)
    (hx : Effect (advance s) i t) :
    step s = .next t ∧ t.turns = rest ∧ ∃ t', step s' = .next t' ∧ SameCall t t' ∧
      ((i ≠ .start → SameSight s s') → SameSight t t') := by
  have hw : ∀ w, encode i = .seq w → (advance s).seq = w :=
    fun _ hiw => seq_of_decode_issued (s := s) hd hiw
  obtain ⟨t', hx', ht⟩ := h.advanced.effect hi hw hx
  refine ⟨step_of_effect h.control.reset_seen hd hx, by rw [hx.turns_eq, advance_turns, hs]; rfl,
    t', step_of_effect h.control'.reset_seen (h.issued_eq ▸ hd) hx', ht, fun hsee => ?_⟩
  exact SameSight.effect h.advanced (fun hne => ⟨(hsee hne).done, (hsee hne).err, (hsee hne).res⟩)
    hi hw hx hx'

/-- A quiet turn performs an operation that can be performed in every state and is neither `START`
nor `RESRD`. -/
theorem exists_effect_of_quietTurn (h : ControlInv s) {v : Turn} {rest : List Turn}
    (hs : s.turns = v :: rest) (hv : quietTurn v = true) :
    ∃ i t, decode (issued s) = .ok i ∧ (∀ n, i ≠ .resrd n) ∧ i ≠ .start ∧
      Effect (advance s) i t := by
  cases v with
  | sequencer =>
    obtain ⟨i, hi⟩ := exists_encode_of_seqLegal h.seq_legal
    obtain ⟨t, ht⟩ := exists_effect_of_encode_seq hi (advance s)
    refine ⟨i, t, issued_of_sequencer hs ▸ decodeSeq_of_encode hi, ?_, ?_, ht⟩
    · rintro n rfl; cases hi
    · rintro rfl; cases hi
  | hcmd w =>
    have hw : decodeHcmd w = .ok .hnop := by simpa [quietTurn] using hv
    exact ⟨.hnop, _, issued_of_hcmd hs ▸ hw, by simp, by simp, .hnop⟩
  | hrd n => simp [quietTurn] at hv
  | hstat => exact ⟨.statrd, _, issued_of_hstat hs ▸ rfl, by simp, by simp, .statrd⟩

/-- A turn of the loading is quiet or an `OPWR`. -/
theorem loadTurn_cases {v : Turn} (h : loadTurn v = true) : quietTurn v = true ∨
    ∃ w x, v = .hcmd w ∧ (decodeHcmd w = .ok (.opwrA x) ∨ decodeHcmd w = .ok (.opwrB x)) := by
  cases v with
  | hcmd w =>
    cases hd : decodeHcmd w with
    | error e => simp [loadTurn, quietTurn, appended, hd] at h
    | ok i => cases i <;> simp_all [loadTurn, quietTurn, appended]
  | sequencer | hstat => exact .inl rfl
  | hrd n => simp [loadTurn, quietTurn, appended] at h

/-- Without a call every turn of the loading is taken, and starts none. -/
theorem exists_effect_of_loadTurn (h : ControlInv s) (hb : s.busy = false) {v : Turn}
    {rest : List Turn} (hs : s.turns = v :: rest) (hv : loadTurn v = true) :
    ∃ i t, decode (issued s) = .ok i ∧ (∀ n, i ≠ .resrd n) ∧ i ≠ .start ∧
      Effect (advance s) i t := by
  rcases loadTurn_cases hv with hq | ⟨w, x, rfl, hw | hw⟩
  · exact exists_effect_of_quietTurn h hs hq
  · exact ⟨.opwrA x, _, issued_of_hcmd hs ▸ hw, by simp, by simp, .opwrA (s := advance s) hb x⟩
  · exact ⟨.opwrB x, _, issued_of_hcmd hs ▸ hw, by simp, by simp, .opwrB (s := advance s) hb x⟩

/-! ### Many turns -/

/-- A relation that every turn of a kind keeps, both states taking it, is kept by a run of such
turns. -/
theorem run_both {R : State → State → Prop} {p : Turn → Prop}
    (hstep : ∀ {s s' v rest}, R s s' → p v → s.turns = v :: rest →
      ∃ t t', step s = .next t ∧ step s' = .next t' ∧ R t t' ∧ t.turns = rest)
    {ts rest : List Turn} (hR : R s s') (hp : ∀ v ∈ ts, p v) (hs : s.turns = ts ++ rest) :
    ∃ t t', run ts.length s = .next t ∧ run ts.length s' = .next t' ∧ R t t' ∧
      t.turns = rest := by
  induction ts generalizing s s' with
  | nil => exact ⟨s, s', rfl, rfl, hR, hs⟩
  | cons v ts ih =>
    obtain ⟨u, u', hu, hu', hRu, hus⟩ := hstep hR (hp v List.mem_cons_self) hs
    obtain ⟨t, t', ht, ht', hRt, hts⟩ := ih hRu (fun w hw => hp w (List.mem_cons_of_mem _ hw)) hus
    exact ⟨t, t', (run_succ_of_next hu).trans ht, (run_succ_of_next hu').trans ht', hRt, hts⟩

/-- Two states before the call, the same bytes appended to their operands. -/
structure Loading (s s' : State) : Prop where
  same : SameCall s s'
  idle : s.busy = false

/-- Two states from `START` on. -/
structure Calling (s s' : State) : Prop where
  same : SameCall s s'
  sight : SameSight s s'

theorem Loading.turn (h : Loading s s') {v : Turn} {rest : List Turn} (hv : loadTurn v = true)
    (hs : s.turns = v :: rest) :
    ∃ t t', step s = .next t ∧ step s' = .next t' ∧ Loading t t' ∧ t.turns = rest := by
  obtain ⟨i, t, hd, hi, hne, hx⟩ := exists_effect_of_loadTurn h.same.control h.idle hs hv
  obtain ⟨ht, hrest, t', ht', hsame, -⟩ := h.same.step_both hs hd hi hx
  exact ⟨t, t', ht, ht', ⟨hsame, hx.not_busy hne h.idle⟩, hrest⟩

theorem Loading.start (h : Loading s s') {u : Turn} {rest : List Turn} (hu : startTurn u = true)
    (hs : s.turns = u :: rest) :
    ∃ t t', step s = .next t ∧ step s' = .next t' ∧ Calling t t' ∧ t.turns = rest := by
  cases u with
  | hcmd w =>
    have hw : decodeHcmd w = .ok .start := by simpa [startTurn] using hu
    obtain ⟨ht, hrest, t', ht', hsame, hsee⟩ := h.same.step_both hs (issued_of_hcmd hs ▸ hw)
      (by simp) (.start h.idle)
    exact ⟨_, t', ht, ht', ⟨hsame, hsee fun hne => absurd rfl hne⟩, hrest⟩
  | sequencer | hrd | hstat => cases hu

theorem Calling.turn (h : Calling s s') {v : Turn} {rest : List Turn} (hv : quietTurn v = true)
    (hs : s.turns = v :: rest) :
    ∃ t t', step s = .next t ∧ step s' = .next t' ∧ Calling t t' ∧ t.turns = rest := by
  obtain ⟨i, t, hd, hi, -, hx⟩ := exists_effect_of_quietTurn h.same.control hs hv
  obtain ⟨ht, hrest, t', ht', hsame, hsee⟩ := h.same.step_both hs hd hi hx
  exact ⟨t, t', ht, ht', ⟨hsame, hsee fun _ => h.sight⟩, hrest⟩

/-- The host observes the same of two states from `START` on. -/
theorem Calling.observe_eq (h : Calling s s') : observe s = observe s' := by
  obtain ⟨hd, he, hr⟩ := h.sight
  have hv : s'.resValid = s.resValid := by rw [State.resValid, State.resValid, hd, he]
  rw [observe, observe, State.status, State.status, hv, hd, he, h.same.busy]
  cases hvalid : s.resValid with
  | false => rfl
  | true => rw [hr hvalid]

/-- Two idle states with empty operands and the same turns to come are about to load the same. -/
theorem loading_of_idle (h : ControlInv s) (h' : ControlInv s') (hb : s.busy = false)
    (hb' : s'.busy = false) (ha : s.lena = 0) (hl : s.lenb = 0) (ha' : s'.lena = 0)
    (hl' : s'.lenb = 0) (hturns : s'.turns = s.turns) : Loading s s' where
  same := {
    sameShape_of_cleared hturns ((h'.seq_of_not_busy hb').trans (h.seq_of_not_busy hb).symm)
      (hb'.trans hb.symm) ha hl ha' hl' with
    control := h
    control' := h'
    call := .of_not_busy hb
    call' := .of_not_busy hb' }
  idle := hb

/-- Settles O43: the two runs load the same bytes, start together and stay in step, whatever the
registers held. -/
theorem historyDoesNotMatter : Obligations.HistoryDoesNotMatter := by
  intro s s' ts post u h h' hb hb' ha hl ha' hl' hs hs' hts hu hpost
  have hload := loading_of_idle h h' hb hb' ha hl ha' hl' (hs'.trans hs.symm)
  obtain ⟨s₁, s₁', hr₁, hr₁', hR₁, hs₁⟩ :=
    run_both (fun hR hv hs => Loading.turn hR hv hs) hload hts hs
  obtain ⟨s₂, s₂', hr₂, hr₂', hR₂, hs₂⟩ := hR₁.start hu hs₁
  obtain ⟨t, t', hr, hr', hR, -⟩ :=
    run_both (fun hR hv hs => Calling.turn hR hv hs) hR₂ hpost (hs₂.trans (List.append_nil _).symm)
  refine ⟨t, t', ?_, ?_, hR.observe_eq⟩
  · rw [Nat.add_assoc, run_add_of_next hr₁, Nat.add_comm, run_succ_of_next hr₂, hr]
  · rw [Nat.add_assoc, run_add_of_next hr₁', Nat.add_comm, run_succ_of_next hr₂', hr']

end Sys2Proof.Safety

/-! ## One turn: the step's operation, and several instances (R58, R171) -/

namespace Sys2Proof.Machine

/-- A `RESET` command may be taken in every state (R149, R181). -/
theorem mayTake_of_reset_hcmd {s : State} {w : BitVec 12} {rest : List Turn}
    (h : s.turns = .hcmd w :: rest) (hw : w.getLsbD 11 = true) : mayTake s = true := by
  simp [mayTake, issued_of_hcmd h, isReset, hw]

theorem advance_of_cons {s : State} {u : Turn} {rest : List Turn} (h : s.turns = u :: rest) :
    advance s = { s with turns := rest } := by
  rw [advance, h]; rfl

theorem decode_hrd_ofNat (n : Fin 32) : decode (.hrd (BitVec.ofNat 5 n)) = .ok (.resrd n) := by
  simp [decode]

/-- A turn in a system is a step of one state, written back to its place. -/
theorem systemStep_eq_next {count : Nat} {sys t : System count} {n : Fin count} :
    systemStep sys n = .next t ↔ ∃ u, step sys[n] = .next u ∧ t = sys.set n.val u n.isLt := by
  unfold systemStep
  cases step sys[n] <;> simp [eq_comm]

/-- A turn leaves every other state of the system as it was. -/
theorem getElem_of_systemStep {count : Nat} {sys t : System count} {n k : Fin count}
    (h : systemStep sys n = .next t) (hk : k ≠ n) : t[k] = sys[k] := by
  obtain ⟨u, -, rfl⟩ := systemStep_eq_next.mp h
  exact Vector.getElem_set_ne _ _ fun e => hk (Fin.ext e.symm)

end Sys2Proof.Machine

namespace Sys2Proof.Safety
open Sys2Proof.Machine

/-- Settles O5: in each clause the turn may be taken and its code is the one decoded. -/
theorem stepRunsDecoded : Obligations.StepRunsDecoded := by
  refine ⟨fun s i hr hturn hi => ?_, fun s w rest i hr hturns hi => ?_,
    fun s n rest hr hturns => ?_, fun s rest hr hturns => ?_⟩
  · exact step_of_decode (mayTake_of_wasReset hr) (issued_of_sequencersTurn hturn ▸ hi)
  · have hmay : mayTake s = true := hr.elim mayTake_of_wasReset (mayTake_of_reset_hcmd hturns)
    rw [step_of_decode hmay (issued_of_hcmd hturns ▸ hi), advance_of_cons hturns]
  · rw [step_of_decode (mayTake_of_wasReset hr) (issued_of_hrd hturns ▸ decode_hrd_ofNat n),
      advance_of_cons hturns]
  · have hi : decode (issued s) = .ok .statrd := by rw [issued_of_hstat hturns]; rfl
    rw [step_of_decode (mayTake_of_wasReset hr) hi, advance_of_cons hturns]

/-- Settles O46: each turn finds its state as it was before the other, and writes to two different
places commute. -/
theorem instancesAreIndependent : Obligations.InstancesAreIndependent := by
  intro count sys sm sn m n hne hm hn
  obtain ⟨u, hu, hsm⟩ := systemStep_eq_next.mp hm
  obtain ⟨v, hv, hsn⟩ := systemStep_eq_next.mp hn
  refine ⟨sm.set n.val v n.isLt, systemStep_eq_next.mpr ⟨v, ?_, rfl⟩,
    systemStep_eq_next.mpr ⟨u, ?_, ?_⟩, fun k => getElem_of_systemStep hm⟩
  · rw [getElem_of_systemStep hm hne.symm, hv]
  · rw [getElem_of_systemStep hn hne, hu]
  · rw [hsm, hsn]
    exact Vector.set_comm _ _ fun e => hne (Fin.ext e)

end Sys2Proof.Safety

/-! ## Packing, bit by bit (R52, R90) -/

namespace Sys2Proof.Machine

/-- A byte lane holds its byte, and zeros in the seven other byte positions. -/
theorem getLsbD_packLane (x : Buf32) (w : Fin 4) (b c : Fin 8) {r : Nat} (hr : r < 8) :
    (packLane x w b).getLsbD (8 * c.val + r) =
      if b = c then (x[8 * w.val + b.val]'(by omega)).getLsbD r else false := by
  rw [packLane, BitVec.getLsbD_shiftLeft, BitVec.getLsbD_setWidth]
  split
  · next h =>
    subst h
    simp [show 8 * b.val + r < 64 by omega, show r < 64 by omega]
  · next h =>
    rcases Nat.lt_or_gt_of_ne (Fin.val_ne_of_ne h) with hlt | hgt
    · rw [BitVec.getLsbD_of_ge _ (8 * c.val + r - 8 * b.val) (by omega)]
      simp
    · simp [show 8 * c.val + r < 8 * b.val by omega]

/-- Bit `r` of byte lane `c` of a packed word is bit `r` of that lane's byte: the other lanes add
nothing there. -/
theorem getLsbD_packWord (x : Buf32) (w : Fin 4) (c : Fin 8) {r : Nat} (hr : r < 8) :
    (packWord x w).getLsbD (8 * c.val + r) =
      (x[8 * w.val + c.val]'(by omega)).getLsbD r := by
  simp only [packWord, BitVec.getLsbD_xor, getLsbD_packLane x w _ c hr]
  fin_cases c <;> simp

/-- Bit `n` of a packed buffer, as one value, is bit `n mod 8` of byte `n div 8` (R52, R90). -/
theorem getLsbD_val4_pack (x : Buf32) {n : Nat} (h : n < 256) :
    (val4 (pack x)).getLsbD n = (x[n / 8]'(by omega)).getLsbD (n % 8) := by
  have hlane := getLsbD_packWord x ⟨n / 64, by omega⟩ ⟨n % 64 / 8, by omega⟩
    (Nat.mod_lt n (by decide : 8 > 0))
  rw [getLsbD_val4 _ _ h, getElem_pack]
  have hbit : 8 * (n % 64 / 8) + n % 8 = n % 64 := by omega
  have hbyte : 8 * (n / 64) + n % 64 / 8 = n / 8 := by omega
  simpa only [hbit, hbyte] using hlane

end Sys2Proof.Machine

namespace Sys2Proof.Safety
open Sys2Proof.Machine

/-- Settles O48: the two polynomials have the same 256 terms. -/
theorem packKeepsPolynomial : Obligations.PackKeepsPolynomial := by
  intro x
  rw [poly, bufPoly, Finset.sum_range]
  exact Finset.sum_congr rfl fun n _ => by rw [getLsbD_val4_pack x n.isLt]

end Sys2Proof.Safety

/-! ## Loading the operands (R58, R141) -/

namespace Sys2Proof.Machine

@[simp] theorem len_advance (s : State) (o : Operand) : (advance s).len o = s.len o := by
  cases o <;> rfl

@[simp] theorem memRead_advance (s : State) (sp : Space) (n : Fin 32) :
    memRead (advance s) sp n = memRead s sp n := by
  cases sp <;> rfl

@[simp] theorem len_setReply (s : State) (r : Reply) (o : Operand) :
    (s.setReply r).len o = s.len o := by
  cases o <;> rfl

@[simp] theorem memRead_setReply (s : State) (r : Reply) (sp : Space) (n : Fin 32) :
    memRead (s.setReply r) sp n = memRead s sp n := by
  cases sp <;> rfl

/-- A counter in its range counts up and stays at 33. -/
theorem toNat_bumpLen {n : BitVec 6} (h : n.toNat ≤ 33) :
    (bumpLen n).toNat = min (n.toNat + 1) 33 := by
  unfold bumpLen
  split
  · rw [BitVec.toNat_add, show (1 : BitVec 6).toNat = 1 from rfl]
    omega
  · omega

@[simp] theorem len_appendByte_same (s : State) (o : Operand) (v : Byte) :
    (appendByte s o v).len o = bumpLen (s.len o) := by
  cases o <;> simp [State.len]

theorem len_appendByte_other (s : State) {o p : Operand} (v : Byte) (h : p ≠ o) :
    (appendByte s o v).len p = s.len p := by
  cases o <;> cases p <;> simp_all [State.len]

theorem operandSpace_injective {o p : Operand} (h : operandSpace p = operandSpace o) : p = o := by
  cases o <;> cases p <;> simp_all [operandSpace]

/-- The byte appended is the one at the counter's index. -/
theorem memRead_appendByte_same (s : State) (o : Operand) (v : Byte) (n : Fin 32)
    (h : (s.len o).toNat = n.val) : memRead (appendByte s o v) (operandSpace o) n = v := by
  rw [appendByte, memRead_setLen, memRead_storeOperand_same s o v n h]

/-- Every byte elsewhere is as it was. -/
theorem memRead_appendByte_other (s : State) (o : Operand) (v : Byte) (sp : Space) (n : Fin 32)
    (h : sp ≠ operandSpace o ∨ n.val ≠ (s.len o).toNat) :
    memRead (appendByte s o v) sp n = memRead s sp n := by
  rw [appendByte, memRead_setLen, memRead_storeOperand_other s o v sp n h]

end Sys2Proof.Machine

namespace Sys2Proof.Safety
open Sys2Proof.Machine

variable {s t u : State} {ts : List Turn} {v : Turn}

/-! ### One turn of the loading -/

/-- An `OPWR` appends its byte to its operand. -/
theorem appended_opwr_same (o : Operand) {w : BitVec 12} {x : Byte}
    (h : decodeHcmd w = .ok (opwr o x)) : appended o (.hcmd w) = some x := by
  cases o <;> simp [appended, h, opwr]

/-- An `OPWR` appends nothing to the other operand. -/
theorem appended_opwr_other {o p : Operand} {w : BitVec 12} {x : Byte}
    (h : decodeHcmd w = .ok (opwr o x)) (hp : p ≠ o) : appended p (.hcmd w) = none := by
  cases o <;> cases p <;> simp_all [appended, opwr]

/-- A quiet turn appends nothing. -/
theorem appended_of_quietTurn (h : quietTurn v = true) (o : Operand) : appended o v = none := by
  cases v with
  | hcmd w =>
    have hw : decodeHcmd w = .ok .hnop := by simpa [quietTurn] using h
    cases o <;> simp [appended, hw]
  | sequencer | hrd | hstat => cases o <;> rfl

/-- Everything a turn of the loading can do to the state `s` with the turn taken off: nothing, reply
with the status, or append the turn's byte to the operand it names. -/
inductive LoadEffect (s : State) (v : Turn) : State → Prop
  | quiet (hq : ∀ o, appended o v = none) : LoadEffect s v s
  | status (hq : ∀ o, appended o v = none) : LoadEffect s v (s.setReply s.status)
  | append (o : Operand) (x : Byte) (ho : appended o v = some x)
      (hp : ∀ p ≠ o, appended p v = none) : LoadEffect s v (appendByte s o x)

/-- Without a call a turn of the loading is taken and does what `LoadEffect` says: the sequencer's
turns are `WAIT`s. -/
theorem step_of_loadTurn (h : ControlInv s) (hb : s.busy = false) {rest : List Turn}
    (hs : s.turns = v :: rest) (hv : loadTurn v = true) :
    ∃ t, step s = .next t ∧ LoadEffect (advance s) v t := by
  rcases loadTurn_cases hv with hq | ⟨w, x, rfl, hw | hw⟩
  · have hnone := appended_of_quietTurn hq
    cases v with
    | sequencer =>
      have hwait : decode (issued s) = .ok .wait := by
        rw [issued_of_sequencer hs, h.seq_of_not_busy hb]
        exact decodeSeq_of_encode (i := .wait) rfl
      exact ⟨_, step_of_effect h.reset_seen hwait .wait, .quiet hnone⟩
    | hcmd w =>
      have hw : decodeHcmd w = .ok .hnop := by simpa [quietTurn] using hq
      exact ⟨_, step_of_effect h.reset_seen (issued_of_hcmd hs ▸ hw) .hnop, .quiet hnone⟩
    | hrd n => cases hq
    | hstat =>
      exact ⟨_, step_of_effect h.reset_seen (issued_of_hstat hs ▸ rfl) .statrd, .status hnone⟩
  · exact ⟨_, step_of_effect h.reset_seen (issued_of_hcmd hs ▸ hw) (.opwrA (s := advance s) hb x),
      .append .a x (appended_opwr_same .a hw) fun _ => appended_opwr_other (o := .a) hw⟩
  · exact ⟨_, step_of_effect h.reset_seen (issued_of_hcmd hs ▸ hw) (.opwrB (s := advance s) hb x),
      .append .b x (appended_opwr_same .b hw) fun _ => appended_opwr_other (o := .b) hw⟩

/-- A frame: what the loading leaves as it was. -/
structure LoadFrame (s t : State) : Prop where
  res : t.res = s.res
  words : SameWords s t
  flags : SameFlags s t
  seq : t.seq = s.seq

theorem LoadFrame.trans (h : LoadFrame s t) (h' : LoadFrame t u) : LoadFrame s u := by
  obtain ⟨hres, ⟨ha, hb, hsb, hc⟩, ⟨hbusy, hdone, herr⟩, hseq⟩ := h
  obtain ⟨hres', ⟨ha', hb', hsb', hc'⟩, ⟨hbusy', hdone', herr'⟩, hseq'⟩ := h'
  exact ⟨hres'.trans hres, ⟨ha'.trans ha, hb'.trans hb, hsb'.trans hsb, hc'.trans hc⟩,
    ⟨hbusy'.trans hbusy, hdone'.trans hdone, herr'.trans herr⟩, hseq'.trans hseq⟩

theorem LoadEffect.frame (h : LoadEffect s v t) : LoadFrame s t := by
  cases h <;> constructor <;> simp [SameWords, SameFlags]

theorem LoadEffect.turns_eq (h : LoadEffect s v t) : t.turns = s.turns := by
  cases h <;> simp

/-! ### What an operand's buffer and counter hold after bytes were appended -/

/-- `OperandHolds s o bs t`: in `t` operand `o` holds the bytes `bs`, the first 32 in its buffer
over what `s` had there, and their number in its counter, 33 standing for more. -/
structure OperandHolds (s : State) (o : Operand) (bs : List Byte) (t : State) : Prop where
  len : (t.len o).toNat = min bs.length 33
  bytes : ∀ n : Fin 32, memRead t (operandSpace o) n =
    (bs[n.val]?).getD (memRead s (operandSpace o) n)

variable {o : Operand} {bs : List Byte}

theorem OperandHolds.of_empty (h : s.len o = 0) : OperandHolds s o [] s :=
  ⟨by simp [h], fun _ => rfl⟩

theorem OperandHolds.of_same (h : OperandHolds s o bs t) (hl : u.len o = t.len o)
    (hm : ∀ n, memRead u (operandSpace o) n = memRead t (operandSpace o) n) :
    OperandHolds s o bs u :=
  ⟨hl ▸ h.len, fun n => (hm n).trans (h.bytes n)⟩

/-- A byte appended to the operand joins its bytes: the 33rd and later ones are counted up to 33 and
stored nowhere. -/
theorem OperandHolds.append (h : OperandHolds s o bs t) (x : Byte) :
    OperandHolds s o (bs ++ [x]) (appendByte t o x) where
  len := by
    rw [len_appendByte_same, toNat_bumpLen (by rw [h.len]; omega), h.len, List.length_append,
      List.length_singleton]
    omega
  bytes n := by
    have hlen := h.len
    by_cases hn : n.val = bs.length
    · rw [memRead_appendByte_same t o x n (by omega), hn, List.getElem?_concat_length]
      rfl
    · rw [memRead_appendByte_other t o x _ n (.inr (by omega)), h.bytes n,
        List.getElem?_append, List.getElem?_singleton]
      split
      · rfl
      · rw [List.getElem?_eq_none (by omega), if_neg (by omega)]

/-- A turn of the loading appends to each operand the byte it carries for it. -/
theorem OperandHolds.loadEffect (h : OperandHolds s o bs t) (hx : LoadEffect t v u) :
    OperandHolds s o (bs ++ (appended o v).toList) u := by
  cases hx with
  | quiet hq | status hq =>
    rw [hq o, Option.toList_none, List.append_nil]
    exact h.of_same (by simp) (by simp)
  | append p x hp hother =>
    by_cases ho : o = p
    · subst ho
      rw [hp]
      exact h.append x
    · rw [hother o ho, Option.toList_none, List.append_nil]
      exact h.of_same (len_appendByte_other t x ho) fun n =>
        memRead_appendByte_other t p x _ n (.inl fun e => ho (operandSpace_injective e))

/-! ### All turns of the loading -/

theorem operandBytes_concat (o : Operand) (ts : List Turn) (v : Turn) :
    operandBytes o (ts ++ [v]) = operandBytes o ts ++ (appended o v).toList := by
  cases h : appended o v <;> simp [operandBytes, h]

/-- `Loaded s ts t`: in `t` the turns `ts` of a loading from `s` have been taken. -/
structure Loaded (s : State) (ts : List Turn) (t : State) : Prop where
  control : ControlInv t
  operand : ∀ o, OperandHolds s o (operandBytes o ts) t
  frame : LoadFrame s t

/-- One more turn of the loading is taken. -/
theorem Loaded.turn (h : Loaded s ts t) (hb : s.busy = false) {rest : List Turn}
    (hturns : t.turns = v :: rest) (hv : loadTurn v = true) :
    ∃ u, step t = .next u ∧ u.turns = rest ∧ Loaded s (ts ++ [v]) u := by
  obtain ⟨hbusy, -⟩ := h.frame.flags
  obtain ⟨u, hstep, hx⟩ := step_of_loadTurn h.control (hbusy.trans hb) hturns hv
  have hframe : LoadFrame s (advance t) := ⟨h.frame.res, h.frame.words, h.frame.flags, h.frame.seq⟩
  refine ⟨u, hstep, by rw [hx.turns_eq, advance_turns, hturns]; rfl,
    stepKeepsControlInv _ _ h.control hstep, fun o => ?_, hframe.trans hx.frame⟩
  rw [operandBytes_concat]
  exact ((h.operand o).of_same (by simp) (by simp)).loadEffect hx

/-- The whole loading, turn by turn from the front. -/
theorem exists_loaded (h : ControlInv s) (hb : s.busy = false) (ha : s.lena = 0) (hl : s.lenb = 0)
    {rest : List Turn} (hs : s.turns = ts ++ rest) (hts : ∀ v ∈ ts, loadTurn v = true) :
    ∃ t, run ts.length s = .next t ∧ t.turns = rest ∧ Loaded s ts t := by
  induction ts using List.reverseRecOn generalizing rest with
  | nil =>
    refine ⟨s, rfl, hs, h, fun o => .of_empty ?_, rfl, ⟨rfl, rfl, rfl, rfl⟩, ⟨rfl, rfl, rfl⟩, rfl⟩
    cases o
    · exact ha
    · exact hl
  | append_singleton ts v ih =>
    obtain ⟨t, hrun, hturns, hload⟩ := ih (rest := v :: rest) (by simpa using hs)
      fun w hw => hts w (List.mem_append_left _ hw)
    obtain ⟨u, hstep, hrest, hu⟩ := hload.turn hb hturns (hts v (by simp))
    refine ⟨u, ?_, hrest, hu⟩
    rw [List.length_append, run_add_of_next hrun]
    exact run_succ_of_next hstep

/-- Settles O39: the turns taken one by one, each appending what it carries. -/
theorem loadingStoresOperands : Obligations.LoadingStoresOperands := by
  intro s ts rest h hb ha hl hs hts
  obtain ⟨t, hrun, hturns, hload⟩ := exists_loaded h hb ha hl hs hts
  have hopa := hload.operand .a
  have hopb := hload.operand .b
  exact ⟨t, hrun, hturns, hopa.len, hopb.len, hopa.bytes, hopb.bytes, hload.frame.res,
    hload.frame.words, hload.frame.flags, hload.frame.seq⟩

end Sys2Proof.Safety

/-! ## Host commands by their strobes, and the round trips of the decoder (R74 to R80) -/

namespace Sys2Proof

/-! ### The fields of a host command (R79) -/

/-- A host command is the word of its strobes and its byte. -/
theorem mkHcmd_fields (w : BitVec 12) :
    mkHcmd (w.getLsbD 11) (w.getLsbD 10) (w.getLsbD 9) (w.getLsbD 8) (hcmdByte w) = w := by
  apply BitVec.eq_of_getLsbD_eq
  intro n hn
  simp only [mkHcmd, hcmdByte, BitVec.getLsbD_append, BitVec.getLsbD_ofBool]
  interval_cases n <;> simp

theorem exists_mkHcmd (w : BitVec 12) :
    ∃ rst start opWr opSel v, w = mkHcmd rst start opWr opSel v :=
  ⟨_, _, _, _, _, (mkHcmd_fields w).symm⟩

section
variable (rst start opWr opSel : Bool) (v : Byte)

theorem getLsbD_mkHcmd_rst : (mkHcmd rst start opWr opSel v).getLsbD 11 = rst := by
  simp only [mkHcmd, BitVec.getLsbD_append]; simp

theorem getLsbD_mkHcmd_start : (mkHcmd rst start opWr opSel v).getLsbD 10 = start := by
  simp only [mkHcmd, BitVec.getLsbD_append]; simp

theorem getLsbD_mkHcmd_opWr : (mkHcmd rst start opWr opSel v).getLsbD 9 = opWr := by
  simp only [mkHcmd, BitVec.getLsbD_append]; simp

theorem getLsbD_mkHcmd_opSel : (mkHcmd rst start opWr opSel v).getLsbD 8 = opSel := by
  simp only [mkHcmd, BitVec.getLsbD_append]; simp

@[simp] theorem hcmdByte_mkHcmd : hcmdByte (mkHcmd rst start opWr opSel v) = v :=
  BitVec.extractLsb'_append_eq_right ..

theorem hcmdByte_and (w w' : BitVec 12) : hcmdByte (w &&& w') = hcmdByte w &&& hcmdByte w' :=
  BitVec.extractLsb'_and ..

/-- Masking works field by field. -/
theorem mkHcmd_and (rst' start' opWr' opSel' : Bool) (v' : Byte) :
    mkHcmd rst start opWr opSel v &&& mkHcmd rst' start' opWr' opSel' v' =
      mkHcmd (rst && rst') (start && start') (opWr && opWr') (opSel && opSel') (v &&& v') := by
  rw [← mkHcmd_fields (mkHcmd rst start opWr opSel v &&& _)]
  simp only [BitVec.getLsbD_and, getLsbD_mkHcmd_rst, getLsbD_mkHcmd_start, getLsbD_mkHcmd_opWr,
    getLsbD_mkHcmd_opSel, hcmdByte_and, hcmdByte_mkHcmd]

theorem mkHcmd_inj {rst start opWr opSel : Bool} {v : Byte} {rst' start' opWr' opSel' : Bool}
    {v' : Byte} :
    mkHcmd rst start opWr opSel v = mkHcmd rst' start' opWr' opSel' v' ↔
      rst = rst' ∧ start = start' ∧ opWr = opWr' ∧ opSel = opSel' ∧ v = v' := by
  constructor
  · intro h
    exact ⟨by simpa only [getLsbD_mkHcmd_rst] using congrArg (·.getLsbD 11) h,
      by simpa only [getLsbD_mkHcmd_start] using congrArg (·.getLsbD 10) h,
      by simpa only [getLsbD_mkHcmd_opWr] using congrArg (·.getLsbD 9) h,
      by simpa only [getLsbD_mkHcmd_opSel] using congrArg (·.getLsbD 8) h,
      by simpa only [hcmdByte_mkHcmd] using congrArg hcmdByte h⟩
  · rintro ⟨rfl, rfl, rfl, rfl, rfl⟩; rfl

/-- The three strobes of a command alone. -/
theorem mkHcmd_and_strobes :
    mkHcmd rst start opWr opSel v &&& 0xE00 = mkHcmd rst start opWr false 0 := by
  rw [show (0xE00 : BitVec 12) = mkHcmd true true true false 0 from rfl, mkHcmd_and]
  simp

/-! ### Decoding a host command -/

/-- Whether a row of R79 matches, strobe by strobe. -/
theorem rowMatches_mkHcmd (name : String) (make : BitVec 12 → Instr)
    (p₁ p₂ p₃ p₄ m₁ m₂ m₃ m₄ : Bool) :
    rowMatches ⟨name, mkHcmd p₁ p₂ p₃ p₄ 0, mkHcmd m₁ m₂ m₃ m₄ 0, make⟩
        (mkHcmd rst start opWr opSel v) =
      decide ((rst && m₁) = p₁ ∧ (start && m₂) = p₂ ∧ (opWr && m₃) = p₃ ∧ (opSel && m₄) = p₄) := by
  simp [rowMatches, mkHcmd_and, Bool.beq_eq_decide_eq, mkHcmd_inj]

/-- The rows of R79 with match and mask written by strobes. -/
theorem hcmdRows_eq : hcmdRows =
    [⟨"RESET", mkHcmd true false false false 0, mkHcmd true false false false 0, fun _ => .reset⟩,
     ⟨"START", mkHcmd false true false false 0, mkHcmd true true true false 0, fun _ => .start⟩,
     ⟨"OPWR_A", mkHcmd false false true false 0, mkHcmd true true true true 0,
       fun w => .opwrA (hcmdByte w)⟩,
     ⟨"OPWR_B", mkHcmd false false true true 0, mkHcmd true true true true 0,
       fun w => .opwrB (hcmdByte w)⟩,
     ⟨"HNOP", mkHcmd false false false false 0, mkHcmd true true true false 0, fun _ => .hnop⟩] :=
  rfl

/-- What a command asks for, by its strobes: `rst` overrides the others (R149), and `start` with
`op_wr` is illegal (R80 (b)). -/
theorem decodeHcmd_mkHcmd : decodeHcmd (mkHcmd rst start opWr opSel v) =
    if rst then .ok .reset
    else if start then if opWr then .error .startAndOpwr else .ok .start
    else if opWr then .ok (if opSel then .opwrB v else .opwrA v)
    else .ok .hnop := by
  simp only [decodeHcmd, lookup, hcmdRows_eq, List.find?, rowMatches_mkHcmd]
  cases rst with
  | true => simp
  | false =>
    cases start with
    | true => cases opWr <;> simp
    | false =>
      cases opWr with
      | true => cases opSel <;> simp
      | false => simp

end

/-- `start` with `op_wr`, when `rst` does not override them, is rejected by name (R80 (b)). -/
theorem decodeHcmd_of_start_and_opWr {w : BitVec 12} (hrst : w.getLsbD 11 = false)
    (hstart : w.getLsbD 10 = true) (hwr : w.getLsbD 9 = true) :
    decodeHcmd w = .error .startAndOpwr := by
  rw [← mkHcmd_fields w, hrst, hstart, hwr, decodeHcmd_mkHcmd]
  rfl

/-- The legal commands are those that decode. -/
theorem hcmdLegal_iff_decodeHcmd {w : BitVec 12} :
    hcmdLegal w = true ↔ ∃ i, decodeHcmd w = .ok i := by
  obtain ⟨rst, start, opWr, opSel, v, rfl⟩ := exists_mkHcmd w
  rw [hcmdLegal, getLsbD_mkHcmd_rst, getLsbD_mkHcmd_start, getLsbD_mkHcmd_opWr, decodeHcmd_mkHcmd]
  cases rst with
  | true => simp
  | false =>
    cases start with
    | true => cases opWr <;> simp
    | false => cases opWr <;> simp

/-- A host command is read back from its code. -/
theorem decodeHcmd_of_encode {w : BitVec 12} {i : Instr} (h : encode i = .hcmd w) :
    decodeHcmd w = .ok i := by
  cases i <;> cases h
  all_goals rw [decodeHcmd_mkHcmd]; rfl

/-- A host command that decodes is the code of its operation, up to the bits that R79 ignores, which
the code has at 0. -/
theorem encode_eq_of_decodeHcmd {w : BitVec 12} {i : Instr} (h : decodeHcmd w = .ok i) :
    encode i = .hcmd (if w.getLsbD 11 then 0x800
      else if w &&& 0xE00 = 0x200 then w else w &&& 0xE00) := by
  obtain ⟨rst, start, opWr, opSel, v, rfl⟩ := exists_mkHcmd w
  rw [getLsbD_mkHcmd_rst, mkHcmd_and_strobes]
  rw [decodeHcmd_mkHcmd] at h
  cases rst with
  | true => cases h; rfl
  | false =>
    cases start with
    | true =>
      cases opWr with
      | true => cases h
      | false => cases h; rfl
    | false =>
      cases opWr with
      | true => cases opSel <;> cases h <;> rfl
      | false => cases h; rfl

/-- The legal values of `SEQ` are those that decode. -/
theorem seqLegal_iff_decodeSeq {w : BitVec 12} : seqLegal w = true ↔ ∃ i, decodeSeq w = .ok i := by
  constructor
  · intro h
    obtain ⟨i, hi⟩ := exists_encode_of_seqLegal h
    exact ⟨i, decodeSeq_of_encode hi⟩
  · rintro ⟨i, hi⟩
    exact seqLegal_of_encode (encode_of_decodeSeq hi)

/-- An illegal value of `SEQ` is rejected by name. -/
theorem decodeSeq_of_not_seqLegal {w : BitVec 12} (h : seqLegal w = false) :
    decodeSeq w = .error (.illegalSeq w) := by
  have hnone : lookup seqRows w = none := by
    by_contra hsome
    obtain ⟨i, hi⟩ := Option.ne_none_iff_exists'.mp hsome
    exact absurd (seqLegal_iff_decodeSeq.mpr ⟨i, decodeSeq_eq_ok.mpr hi⟩) (by simp [h])
  simp [decodeSeq, hnone]

/-! ### Numbers of the opcode table -/

/-- A number of the opcode table stands for the operation of its code. -/
theorem decode_tableCode {nbits w : Nat} {i : Instr} (h : decodeTableWord nbits w = some i) :
    decode (tableCode nbits w) = .ok i := by
  unfold decodeTableWord at h
  split at h
  · cases hd : decode (tableCode nbits w) <;> rw [hd] at h <;> cases h
    rfl
  · cases h

end Sys2Proof

namespace Sys2Proof.Machine

/-- A turn whose code is no operation stops the machine. -/
theorem step_of_reject {s : State} {r : Reject} (hm : mayTake s = true)
    (hr : decode (issued s) = .error r) : step s = stopOn r := by
  simp [step, hm, hr]

@[simp] theorem State.withCode_wasReset (s : State) (c : Code) :
    (s.withCode c).wasReset = s.wasReset := by
  cases c <;> rfl

/-- The step after placing a code performs its operation. -/
theorem step_withCode {s : State} {c : Code} {i : Instr} (hr : s.wasReset = true)
    (hi : decode c = .ok i) : step (s.withCode c) = exec i (advance (s.withCode c)) :=
  step_of_decode (mayTake_of_wasReset (by simpa)) (by rwa [issued_withCode])

end Sys2Proof.Machine

namespace Sys2Proof.Safety
open Sys2Proof.Machine

/-- Settles O1, format by format. -/
theorem decodeOfEncode : Obligations.DecodeOfEncode := by
  intro i
  cases h : encode i with
  | seq w => exact decodeSeq_of_encode h
  | hcmd w => exact decodeHcmd_of_encode h
  | hrd n => cases i <;> cases h; exact decode_hrd_ofNat _
  | hstat => cases i <;> cases h; rfl

/-- Settles O2, format by format. -/
theorem encodeOfDecode : Obligations.EncodeOfDecode := by
  intro c i h
  cases c with
  | seq w => exact encode_of_decodeSeq h
  | hcmd w => exact encode_eq_of_decodeHcmd h
  | hrd n => cases h; simp [encode]
  | hstat => cases h; rfl

/-- Settles O3, format by format; every read is well formed and decodes. -/
theorem legalCodesDecode : Obligations.LegalCodesDecode := by
  intro c
  cases c with
  | seq w => exact seqLegal_iff_decodeSeq
  | hcmd w => exact hcmdLegal_iff_decodeHcmd
  | hrd n => exact ⟨fun _ => ⟨_, rfl⟩, fun _ => rfl⟩
  | hstat => exact ⟨fun _ => ⟨_, rfl⟩, fun _ => rfl⟩

/-- Settles O7: both codes are rejected by the decoder. -/
theorem illegalCodesStop : Obligations.IllegalCodesStop := by
  refine ⟨fun s hr hturn hl => ?_, fun s w rest hr hturns hrst hstart hwr => ?_⟩
  · exact step_of_reject (mayTake_of_wasReset hr)
      ((congrArg decode (issued_of_sequencersTurn hturn)).trans (decodeSeq_of_not_seqLegal hl))
  · exact step_of_reject (mayTake_of_wasReset hr)
      ((congrArg decode (issued_of_hcmd hturns)).trans
        (decodeHcmd_of_start_and_opWr hrst hstart hwr))

/-- Settles O4: eight of the words are the codes of their operations, and the `RESET` command
carries strobes that it overrides. -/
theorem specWordsDecode : Obligations.SpecWordsDecode :=
  ⟨decodeOfEncode .wait, decodeOfEncode .packa, decodeOfEncode (.fold 63 3),
    decodeOfEncode (.shl1 1), decodeOfEncode (.rfold 3), decodeOfEncode .fin,
    decodeOfEncode (.opwrB 5), decodeHcmd_mkHcmd true true true false 0,
    decodeOfEncode (.resrd 31)⟩

/-- Settles O6: the placed code is the one acted on. -/
theorem fetchWordRunsNext : Obligations.FetchWordRunsNext := by
  intro s nbits w i hr hi
  rw [State.withFetchWord, step_withCode hr (decode_tableCode hi), advance_withCode]
  cases tableCode nbits w <;> rfl

end Sys2Proof.Safety

/-! ## The hardwired program and its run (R32, R77, R82) -/

namespace Sys2Proof.Safety
open Sys2Proof.Machine

/-! ### The program is linked by the successor table -/

/-- The sequencer word of a micro-operation. -/
def seqWord (i : Instr) : BitVec 12 :=
  match encode i with
  | .seq w => w
  | _ => 0

theorem seqWord_of_encode {i : Instr} {w : BitVec 12} (h : encode i = .seq w) : seqWord i = w := by
  rw [seqWord, h]

/-- Micro-operation `j` is the one that R32's table puts after `i` in a call with well-sized
operands; `FIN`, which ends the call, leads nowhere. -/
structure LeadsTo (i j : Instr) : Prop where
  ne_fin : i ≠ .fin
  encode_next : encode j = .seq (successor (seqWord i) true)

theorem leadsTo_fold (k : Fin 64) {j j' : Fin 4} (h : j'.val = j.val + 1) :
    LeadsTo (.fold k j) (.fold k j') where
  ne_fin := nofun
  encode_next := by rw [seqWord_of_encode rfl, successor_fold, seqAfterFold, encode, h]

theorem leadsTo_fold_shl1 (k : Fin 64) : LeadsTo (.fold k 3) (.shl1 k) where
  ne_fin := nofun
  encode_next := by rw [seqWord_of_encode rfl, successor_fold]; rfl

theorem leadsTo_shl1_fold {k k' : Fin 64} (h : k'.val = k.val + 1) :
    LeadsTo (.shl1 k) (.fold k' 0) where
  ne_fin := nofun
  encode_next := by
    rw [seqWord_of_encode rfl, successor_shl1, seqAfterShl1_of_le (by omega), encode, h]; rfl

theorem leadsTo_rfold {ss ss' : Fin 4} (h : ss.val = ss'.val + 1) :
    LeadsTo (.rfold ss) (.rfold ss') where
  ne_fin := nofun
  encode_next := by
    rw [seqWord_of_encode rfl, successor_rfold, seqAfterRfold, if_pos (by omega), encode, h]; rfl

/-- One round of the comb loop. -/
theorem isChain_combRound (k : Fin 64) : (combRound k).IsChain LeadsTo := by
  simp only [combRound, List.isChain_cons_cons, List.isChain_singleton, and_true]
  exact ⟨leadsTo_fold k rfl, leadsTo_fold k rfl, leadsTo_fold k rfl, leadsTo_fold_shl1 k⟩

/-- The 64 rounds: the shift of each leads to the first fold of the next. -/
theorem isChain_combRounds : ((List.finRange 64).flatMap combRound).IsChain LeadsTo := by
  rw [List.flatMap_def, List.isChain_flatten (by simp [combRound])]
  constructor
  · intro l hl
    obtain ⟨k, -, rfl⟩ := List.mem_map.mp hl
    exact isChain_combRound k
  · rw [← List.ofFn_eq_map, List.isChain_ofFn]
    intro k hk
    simpa [combRound] using leadsTo_shl1_fold rfl

theorem isChain_redc : redc.IsChain LeadsTo := by
  simp only [redc, List.isChain_cons_cons, List.isChain_singleton, and_true]
  exact ⟨leadsTo_rfold rfl, leadsTo_rfold rfl, leadsTo_rfold rfl⟩

theorem head?_combRounds : ((List.finRange 64).flatMap combRound).head? = some (.fold 0 0) := by
  rw [List.finRange_succ, List.flatMap_cons]; rfl

theorem getLast?_combRounds :
    ((List.finRange 64).flatMap combRound).getLast? = some (.shl1 63) := by
  rw [List.finRange_succ_last, List.flatMap_append, List.getLast?_append]; rfl

/-- The program in its four phases: loading, comb loop, reduction, store (R29). -/
theorem mulseq_eq : mulseq =
    [.chk, .packa, .packb, .cinit] ++ ((List.finRange 64).flatMap combRound ++
      (redc ++ [.unpack, .fin])) := by
  simp only [mulseq, cmul, List.append_assoc, List.cons_append, List.nil_append]

/-- Each micro-operation of the hardwired program leads to the next. -/
theorem isChain_mulseq : mulseq.IsChain LeadsTo := by
  have hload : [Instr.chk, .packa, .packb, .cinit].IsChain LeadsTo := by
    simp only [List.isChain_cons_cons, List.isChain_singleton, and_true]
    exact ⟨⟨nofun, rfl⟩, ⟨nofun, rfl⟩, ⟨nofun, rfl⟩⟩
  have hstore : [Instr.unpack, .fin].IsChain LeadsTo := List.isChain_pair.mpr ⟨nofun, rfl⟩
  have hcinit : LeadsTo .cinit (.fold 0 0) := ⟨nofun, rfl⟩
  have hshl1 : LeadsTo (.shl1 63) (.rfold 3) := ⟨nofun, rfl⟩
  have hrfold : LeadsTo (.rfold 0) .unpack := ⟨nofun, rfl⟩
  rw [mulseq_eq]
  refine hload.append (isChain_combRounds.append (isChain_redc.append hstore ?_) ?_) ?_
  · simpa [redc] using hrfold
  · rw [getLast?_combRounds]
    simpa [redc] using hshl1
  · rw [List.head?_append, head?_combRounds]
    simpa using hcinit

theorem length_mulseq : mulseq.length = 330 := by
  simp [mulseq, cmul, redc, combRound, List.length_flatMap]

/-! ### A linked program is what the sequencer performs -/

/-- The sequencer, alone with the machine and with well-sized operands, is about to perform `i`. -/
structure AboutTo (i : Instr) (s : State) : Prop where
  wasReset : s.wasReset = true
  turns : s.turns = []
  lengthsOk : lengthsOk s = true
  encode_eq : encode i = .seq s.seq

variable {i j : Instr} {s t : State}

/-- With both counters at 32 only `FIN`, of the micro-operations, writes them. -/
theorem lengthsOk_of_effect {w : BitVec 12} (hx : Effect s i t) (hw : encode i = .seq w)
    (hl : lengthsOk s = true) (hi : i ≠ .fin) : lengthsOk t = true := by
  cases hx with
  | fin => exact absurd rfl hi
  | chkFail hf => rw [hl] at hf; cases hf
  | reset | start | opwrA | opwrB | hnop | resrd | statrd => cases hw
  | _ => simpa [lengthsOk_iff] using hl

theorem AboutTo.decode_issued (h : AboutTo i s) : decode (issued s) = .ok i := by
  rw [issued_of_nil h.turns]
  exact decodeSeq_of_encode h.encode_eq

theorem AboutTo.exists_step (h : AboutTo i s) : ∃ t, step s = .next t := by
  obtain ⟨t, ht⟩ := exists_effect_of_encode_seq h.encode_eq (advance s)
  exact ⟨t, step_of_effect h.wasReset h.decode_issued ht⟩

/-- After a micro-operation the sequencer is about to perform the one it leads to. -/
theorem AboutTo.next (h : AboutTo i s) (hij : LeadsTo i j) (hs : step s = .next t) :
    AboutTo j t := by
  have hx := effect_of_step h.decode_issued hs
  have hreset : i ≠ .reset := by rintro rfl; cases h.encode_eq
  obtain ⟨hturns, hkept, -⟩ := modelFieldsKept i _ t (exec_eq_next_iff.mpr hx)
  have hseq : t.seq = successor s.seq true := by
    rw [hx.seq_eq_successor h.encode_eq, lengthsOk_advance, h.lengthsOk]; rfl
  exact {
    wasReset := (hkept hreset).2.trans h.wasReset
    turns := by rw [hturns, advance, h.turns]; rfl
    lengthsOk := lengthsOk_of_effect hx h.encode_eq h.lengthsOk hij.ne_fin
    encode_eq := by rw [hij.encode_next, seqWord_of_encode h.encode_eq, hseq] }

theorem opTrace_succ (n : Nat) (hi : decode (issued s) = .ok i) (hs : step s = .next t) :
    opTrace (n + 1) s = i :: opTrace n t := by
  rw [opTrace, hi, hs]

theorem seqTrace_succ (n : Nat) (hs : step s = .next t) :
    seqTrace (n + 1) s = s.seq :: seqTrace n t := by
  rw [seqTrace, hs]

/-- The traces of a linked program, from the state that is about to perform its first
micro-operation. -/
theorem traces_of_isChain {p : List Instr} (hp : (i :: p).IsChain LeadsTo) (h : AboutTo i s) :
    opTrace (i :: p).length s = i :: p ∧ seqTrace (i :: p).length s = (i :: p).map seqWord := by
  induction p generalizing i s with
  | nil =>
    obtain ⟨t, hs⟩ := h.exists_step
    exact ⟨opTrace_succ 0 h.decode_issued hs, by
      rw [List.map_singleton, seqWord_of_encode h.encode_eq]; exact seqTrace_succ 0 hs⟩
  | cons j p ih =>
    obtain ⟨hij, hp⟩ := List.isChain_cons_cons.mp hp
    obtain ⟨t, hs⟩ := h.exists_step
    obtain ⟨hop, hseq⟩ := ih hp (h.next hij hs)
    rw [List.length_cons, opTrace_succ _ h.decode_issued hs, seqTrace_succ _ hs, hop, hseq,
      List.map_cons (a := i), seqWord_of_encode h.encode_eq]
    exact ⟨rfl, rfl⟩

/-- Settles O38: the program is linked, and the state is about to perform its `CHK`. -/
theorem callRunsHardwiredProgram : Obligations.CallRunsHardwiredProgram := by
  intro s hr hturns hseq ha hb
  have hchk : AboutTo .chk s := ⟨hr, hturns, lengthsOk_iff.mpr ⟨ha, hb⟩, by rw [hseq]; rfl⟩
  obtain ⟨hop, hsq⟩ := traces_of_isChain isChain_mulseq hchk
  rw [← length_mulseq]
  exact ⟨rfl, hop, hsq⟩

end Sys2Proof.Safety

/-! ## Unpacking, bit by bit, and the two inverse laws (R52, R91 to R94) -/

namespace Sys2Proof.Machine

/-- Coefficient `n` of a packed buffer: bit `n mod 64` of word `n div 64` is bit `n mod 8` of byte
`n div 8` (R52, R90). -/
theorem getLsbD_pack (x : Buf32) {n : Nat} (h : n < 256) :
    ((pack x)[n / 64]'(by omega)).getLsbD (n % 64) = (x[n / 8]'(by omega)).getLsbD (n % 8) := by
  rw [← getLsbD_val4 (pack x) n h, getLsbD_val4_pack x h]

/-- Bit `r` of an unpacked byte is bit `r` of that byte's lane in its word: the mask cuts at bit 8,
as the byte does (R93). -/
theorem getLsbD_unpackByte (v : W4) (n : Fin 32) {r : Nat} (hr : r < 8) :
    (unpackByte v n).getLsbD r = (v[n.val / 8]'(by omega)).getLsbD (8 * (n.val % 8) + r) := by
  have hmask : (0xFF : Word).getLsbD r = true := by
    interval_cases r <;> rfl
  rw [unpackByte, BitVec.getLsbD_setWidth, BitVec.getLsbD_and, BitVec.getLsbD_ushiftRight, hmask,
    Bool.and_true, decide_eq_true hr, Bool.true_and]

/-- Coefficient `n` of an unpacked element: bit `n mod 8` of byte `n div 8` is bit `n mod 64` of
word `n div 64` (R52, R93). -/
theorem getLsbD_unpack (v : W4) {n : Nat} (h : n < 256) :
    ((unpack v)[n / 8]'(by omega)).getLsbD (n % 8) = (v[n / 64]'(by omega)).getLsbD (n % 64) := by
  have hword : n / 8 / 8 = n / 64 := by omega
  have hbit : 8 * (n / 8 % 8) + n % 8 = n % 64 := by omega
  rw [getElem_unpack, getLsbD_unpackByte v _ (Nat.mod_lt n (by decide))]
  simp only [hword, hbit]

/-- Two buffers of the same 256 coefficients are the same buffer. -/
theorem buf32_eq_of_bits {x y : Buf32}
    (h : ∀ n (hn : n < 256), (x[n / 8]'(by omega)).getLsbD (n % 8) =
      (y[n / 8]'(by omega)).getLsbD (n % 8)) : x = y := by
  apply Vector.ext
  intro i hi
  apply BitVec.eq_of_getLsbD_eq
  intro r hr
  have hbyte : (8 * i + r) / 8 = i := by omega
  have hbit : (8 * i + r) % 8 = r := by omega
  simpa only [hbyte, hbit] using h (8 * i + r) (by omega)

/-- Unpacking undoes packing (R93). -/
@[simp] theorem unpack_pack (x : Buf32) : unpack (pack x) = x :=
  buf32_eq_of_bits fun _ hn => (getLsbD_unpack (pack x) hn).trans (getLsbD_pack x hn)

/-- Packing undoes unpacking (R93). -/
@[simp] theorem pack_unpack (v : W4) : pack (unpack v) = v := by
  apply val4_injective
  apply BitVec.eq_of_getLsbD_eq
  intro n hn
  rw [getLsbD_val4_pack _ hn, getLsbD_unpack v hn, getLsbD_val4 v n hn]

/-! ### Bytes under the writes of the packing micro-operations -/

@[simp] theorem memRead_setA (s : State) (x : W4) (sp : Space) (n : Fin 32) :
    memRead (s.setA x) sp n = memRead s sp n := by
  cases sp <;> rfl

@[simp] theorem memRead_setB (s : State) (x : W4) (sp : Space) (n : Fin 32) :
    memRead (s.setB x) sp n = memRead s sp n := by
  cases sp <;> rfl

@[simp] theorem memRead_setSeq (s : State) (w : BitVec 12) (sp : Space) (n : Fin 32) :
    memRead (s.setSeq w) sp n = memRead s sp n := by
  cases sp <;> rfl

/-- A buffer written is the buffer read. -/
@[simp] theorem memRead_setBuffer_same (s : State) (sp : Space) (x : Buf32) (n : Fin 32) :
    memRead (s.setBuffer sp x) sp n = x[n] := by
  rw [memRead, State.setBuffer_buffer_same]

/-- Writing one buffer leaves the bytes of the others. -/
theorem memRead_setBuffer_other (s : State) {sp q : Space} (x : Buf32) (n : Fin 32) (h : q ≠ sp) :
    memRead (s.setBuffer sp x) q n = memRead s q n := by
  rw [memRead, State.setBuffer_buffer_other s x h, memRead]

end Sys2Proof.Machine

namespace Sys2Proof.Safety
open Sys2Proof.Machine

/-- Settles O11: each operation writes the packed buffer to its register, and the coefficients of a
packed buffer are the buffer's. -/
theorem packCopiesCoefficients : Obligations.PackCopiesCoefficients := by
  refine ⟨rfl, rfl, fun s => ⟨_, exec_packa s, fun n => ?packa, rfl, ?frameA⟩,
    fun s => ⟨_, exec_packb s, fun n => ?packb, rfl, ?frameB⟩⟩
  case packa => exact getLsbD_pack s.opa n.isLt
  case frameA => simp [SameBytes, SameFlags, SameLens]
  case packb => exact getLsbD_pack s.opb n.isLt
  case frameB => simp [SameBytes, SameFlags, SameLens]

/-- Settles O12: all of `RES` is written, with the coefficients of the four low words of `C`. -/
theorem unpackCopiesCoefficients : Obligations.UnpackCopiesCoefficients := by
  refine ⟨rfl, fun s => ⟨_, exec_unpack s, fun n => ?coefficients, fun sp n hsp => ?otherBuffers,
    rfl, ?frame⟩⟩
  case coefficients =>
    rw [memRead_setSeq, memRead_setBuffer_same, ← getElem_lowWords s.c (n.val / 64) (by omega)]
    exact getLsbD_unpack (lowWords s.c) n.isLt
  case otherBuffers => rw [memRead_setSeq, memRead_setBuffer_other s _ n hsp]
  case frame => simp [SameWords, SameFlags, SameLens]

/-- Settles O47: the first clause is the byte's definition, the others compare coefficients. -/
theorem packUnpackInverse : Obligations.PackUnpackInverse :=
  ⟨fun v n => getElem_unpack v n n.isLt, unpack_pack, pack_unpack⟩

end Sys2Proof.Safety

/-! ## The comb's micro-operations, word by word (R101 to R105) -/

namespace Sys2Proof

/-- A word of the comb phase, as a number. -/
theorem mkSeq_comb_eq {k st : Nat} (hk : k < 64) (hst : st < 8) :
    mkSeq phComb (BitVec.ofNat 6 k) (BitVec.ofNat 3 st) = BitVec.ofNat 12 (0x400 + 8 * k + st) := by
  apply BitVec.eq_of_toNat_eq
  have hph : phComb.toNat = 2 := rfl
  rw [toNat_mkSeq, hph, BitVec.toNat_ofNat, BitVec.toNat_ofNat, BitVec.toNat_ofNat]
  omega

end Sys2Proof

namespace Sys2Proof.Machine

/-- A shift left by one is a doubling. -/
theorem toNat_shiftLeft_one {w : Nat} (x : BitVec w) : (x <<< 1).toNat = x.toNat * 2 % 2 ^ w := by
  rw [BitVec.toNat_shiftLeft, Nat.shiftLeft_eq, pow_one]

@[simp] theorem memRead_setC (s : State) (x : W8) (sp : Space) (n : Fin 32) :
    memRead (s.setC x) sp n = memRead s sp n := by
  cases sp <;> rfl

@[simp] theorem memRead_setSb (s : State) (x : W5) (sp : Space) (n : Fin 32) :
    memRead (s.setSb x) sp n = memRead s sp n := by
  cases sp <;> rfl

end Sys2Proof.Machine

namespace Sys2Proof.Safety
open Sys2Proof.Machine

/-- A frame: what the comb multiplier leaves as it was, all but `SB`, `C` and `SEQ`. -/
structure CombFrame (s t : State) : Prop where
  a : t.a = s.a
  b : t.b = s.b
  bytes : SameBytes s t
  flags : SameFlags s t
  lens : SameLens s t
  turns : t.turns = s.turns
  wasReset : t.wasReset = s.wasReset

theorem CombFrame.trans {s t u : State} (h : CombFrame s t) (h' : CombFrame t u) :
    CombFrame s u where
  a := h'.a.trans h.a
  b := h'.b.trans h.b
  bytes := fun sp n => (h'.bytes sp n).trans (h.bytes sp n)
  flags := ⟨h'.flags.1.trans h.flags.1, h'.flags.2.1.trans h.flags.2.1,
    h'.flags.2.2.trans h.flags.2.2⟩
  lens := ⟨h'.lens.1.trans h.lens.1, h'.lens.2.trans h.lens.2⟩
  turns := h'.turns.trans h.turns
  wasReset := h'.wasReset.trans h.wasReset

theorem combFrame_setC_setSeq (s : State) (x : W8) (w : BitVec 12) :
    CombFrame s ((s.setC x).setSeq w) := by
  constructor <;> simp [SameBytes, SameFlags, SameLens]

theorem combFrame_setSb_setSeq (s : State) (x : W5) (w : BitVec 12) :
    CombFrame s ((s.setSb x).setSeq w) := by
  constructor <;> simp [SameBytes, SameFlags, SameLens]

theorem combFrame_setC_setSb_setSeq (s : State) (x : W8) (y : W5) (w : BitVec 12) :
    CombFrame s (((s.setC x).setSb y).setSeq w) := by
  constructor <;> simp [SameBytes, SameFlags, SameLens]

/-- Settles O13: what `CINIT` writes, word by word. -/
theorem cinitInitialises : Obligations.CinitInitialises := by
  refine ⟨rfl, fun s => ⟨_, exec_cinit s, fun i => ?_, fun i => ?_, ?_, rfl, rfl, rfl, ?_⟩⟩
  · exact getElem_zeroWords i i.isLt
  · exact getElem_initShift_low s.b i i.isLt
  · exact getElem_initShift_top s.b
  · have hf := combFrame_setC_setSb_setSeq s zeroWords (initShift s.b) seqComb
    exact ⟨hf.bytes, hf.flags, hf.lens⟩

/-- Settles O14: the window and the words outside it, by the two cases of what a fold adds. -/
theorem foldXorsWindow : Obligations.FoldXorsWindow := by
  refine fun k j => ⟨congrArg Code.seq (mkSeq_comb_eq k.isLt (by omega)), fun s =>
    ⟨_, exec_fold s k j, fun i => ?window, fun n hn => ?outside, ?successor, rfl, rfl, rfl,
      ?frame⟩⟩
  case window =>
    rw [← foldMask_eq, ← foldTerm_inside]
    exact getElem_foldWords s.c s.sb (foldMask s.a[j] k) j (j + i) (by omega)
  case outside =>
    have hword := getElem_foldWords s.c s.sb (foldMask s.a[j] k) j n n.isLt
    rw [foldTerm_outside s.sb (foldMask s.a[j] k) j n hn] at hword
    exact hword.trans BitVec.xor_zero
  case successor => exact mkSeq_comb_eq k.isLt (by omega)
  case frame =>
    have hf := combFrame_setC_setSeq s (foldWords s.c s.sb (foldMask s.a[j] k) j) (seqAfterFold k j)
    exact ⟨hf.bytes, hf.flags, hf.lens⟩

/-- Settles O15: the accumulator after a fold, as one value. -/
theorem foldAddsShiftedTerm : Obligations.FoldAddsShiftedTerm :=
  fun k j s => ⟨_, exec_fold s k j, val8_foldWords s.c s.sb s.a[j] k j⟩

/-- The successors of `SHL1`, as numbers. -/
theorem seqAfterShl1_eq (k : Fin 64) : seqAfterShl1 k =
    if k.val ≤ 62 then BitVec.ofNat 12 (0x400 + 8 * (k.val + 1)) else 0x603 := by
  split
  · next hk =>
    rw [seqAfterShl1_of_le hk]
    exact mkSeq_comb_eq (k := k.val + 1) (st := 0) (by omega) (by omega)
  · next hk =>
    rw [seqAfterShl1_of_not_le hk]
    rfl

/-- Settles O16: the new shift buffer is the old one shifted left by one, as a value. -/
theorem shl1DoublesShiftBuffer : Obligations.Shl1DoublesShiftBuffer := by
  refine fun k => ⟨?code, fun s => ⟨_, exec_shl1 s k, ?doubled, seqAfterShl1_eq k, rfl, rfl, rfl,
    ?frame⟩⟩
  case code =>
    rw [show 0x404 + 8 * k.val = 0x400 + 8 * k.val + 4 by omega]
    exact congrArg Code.seq (mkSeq_comb_eq (st := 4) k.isLt (by decide))
  case doubled =>
    exact (congrArg BitVec.toNat (val5_shl1Words s.sb)).trans (toNat_shiftLeft_one (val5 s.sb))
  case frame =>
    have hf := combFrame_setSb_setSeq s (shl1Words s.sb) (seqAfterShl1 k)
    exact ⟨hf.bytes, hf.flags, hf.lens⟩

end Sys2Proof.Safety

/-! ## The comb loop computes the product (R105, R108) -/

namespace Sys2Proof.Safety
open Sys2Proof.Machine

variable {s t : State}

/-- With no turn of the host to come, a step is the micro-operation that `SEQ` selects. -/
theorem step_of_encode_seq {i : Instr} (hr : t.wasReset = true) (hturns : t.turns = [])
    (hi : encode i = .seq t.seq) : step t = exec i t := by
  have hd : decode (issued t) = .ok i := issued_of_nil hturns ▸ decodeSeq_of_encode hi
  have hadv : advance t = t := by rw [advance, hturns, List.tail_nil, ← hturns]
  rw [step_of_decode (mayTake_of_wasReset hr) hd, hadv]

/-- The word at which the comb is about to perform step `j` of round `k`, and the reducer's first
word when the 64 rounds are over. -/
def combWord (k j : Nat) : BitVec 12 :=
  if k < 64 then mkSeq phComb (BitVec.ofNat 6 k) (BitVec.ofNat 3 j) else mkSeq phRed 0 3

theorem encode_fold (k : Fin 64) (j : Fin 4) : encode (.fold k j) = .seq (combWord k j) :=
  congrArg Code.seq (if_pos k.isLt).symm

theorem encode_shl1 (k : Fin 64) : encode (.shl1 k) = .seq (combWord k 4) :=
  congrArg Code.seq (if_pos k.isLt).symm

theorem seqAfterFold_eq_combWord (k : Fin 64) (j : Fin 4) :
    seqAfterFold k j = combWord k (j + 1) :=
  (if_pos k.isLt).symm

theorem seqAfterShl1_eq_combWord (k : Fin 64) : seqAfterShl1 k = combWord (k + 1) 0 :=
  if_congr (by omega) rfl rfl

/-- `CombAt s k j t`: from the operands in `s`, state `t` has come to step `j` of round `k`, with the
terms folded so far in the accumulator (R105) and `B * 2^k` in the shift buffer (R23). -/
structure CombAt (s : State) (k j : Nat) (t : State) : Prop extends CombFrame s t where
  seq : t.seq = combWord k j
  sb : val5 t.sb = (val4 s.b).setWidth 320 <<< k
  c : val8 t.c = partialProduct (val4 s.a) (val4 s.b) k j

/-- `CINIT` comes to the first round. -/
theorem combAt_cinit (s : State) :
    CombAt s 0 0 (((s.setC zeroWords).setSb (initShift s.b)).setSeq seqComb) where
  toCombFrame := combFrame_setC_setSb_setSeq s _ _ _
  seq := rfl
  sb := by simp [val5_initShift]
  c := val8_zeroWords.trans (partialProduct_start _ _).symm

/-- `FOLD k, j` adds the term of bit `k` of word `j`. -/
theorem CombAt.fold {k : Fin 64} {j : Fin 4} (h : CombAt s k j t) :
    CombAt s k (j + 1)
      ((t.setC (foldWords t.c t.sb (foldMask t.a[j] k) j)).setSeq (seqAfterFold k j)) where
  toCombFrame := h.toCombFrame.trans (combFrame_setC_setSeq t _ _)
  seq := seqAfterFold_eq_combWord k j
  sb := h.sb
  c := by
    have hbit : (val4 s.a).getLsbD (64 * j.val + k.val) = s.a[j].getLsbD k :=
      getLsbD_val4_word s.a j k j.isLt k.isLt
    change val8 (foldWords t.c t.sb (foldMask t.a[j] k) j) = _
    rw [val8_foldWords, h.c, h.sb, h.a, setWidth_shiftLeft_setWidth _ _ k.isLt, partialProduct_fold,
      hbit]

/-- `SHL1` goes on to the next round with the same sum. -/
theorem CombAt.shl1 {k : Fin 64} (h : CombAt s k 4 t) :
    CombAt s (k + 1) 0 ((t.setSb (shl1Words t.sb)).setSeq (seqAfterShl1 k)) where
  toCombFrame := h.toCombFrame.trans (combFrame_setSb_setSeq t _ _)
  seq := seqAfterShl1_eq_combWord k
  sb := by
    change val5 (shl1Words t.sb) = _
    rw [val5_shl1Words, h.sb, BitVec.shiftLeft_add]
  c := h.c.trans (partialProduct_next _ _ k)

/-- The sequencer alone takes the step of the comb that it is at. -/
theorem CombAt.step_eq {i : Instr} {k j : Nat} (h : CombAt s k j t) (hr : s.wasReset = true)
    (hturns : s.turns = []) (hi : encode i = .seq (combWord k j)) : step t = exec i t :=
  step_of_encode_seq (h.wasReset.trans hr) (h.turns.trans hturns) (h.seq ▸ hi)

/-- The folds of a round, from the first on. -/
theorem CombAt.run_folds (hr : s.wasReset = true) (hturns : s.turns = []) {k : Fin 64} {n : Nat}
    (hn : n ≤ 4) (h : CombAt s k 0 t) : ∃ u, run n t = .next u ∧ CombAt s k n u := by
  induction n with
  | zero => exact ⟨t, rfl, h⟩
  | succ n ih =>
    obtain ⟨u, hu, hat⟩ := ih (by omega)
    have hat : CombAt s k (⟨n, hn⟩ : Fin 4) u := hat
    refine ⟨_, ?_, hat.fold⟩
    rw [run_add_of_next hu, run_succ_of_next ((hat.step_eq hr hturns (encode_fold k _)).trans
      (exec_fold u k _)), run_zero]

/-- A whole round: four folds and the shift. -/
theorem CombAt.run_round (hr : s.wasReset = true) (hturns : s.turns = []) {k : Fin 64}
    (h : CombAt s k 0 t) : ∃ u, run 5 t = .next u ∧ CombAt s (k + 1) 0 u := by
  obtain ⟨u, hu, hat⟩ := h.run_folds hr hturns le_rfl
  refine ⟨_, ?_, hat.shl1⟩
  rw [run_add_of_next (m := 4) (n := 1) hu, run_succ_of_next
    ((hat.step_eq hr hturns (encode_shl1 k)).trans (exec_shl1 u k)), run_zero]

/-- The first `n` rounds. -/
theorem CombAt.run_rounds (hr : s.wasReset = true) (hturns : s.turns = []) {n : Nat} (hn : n ≤ 64)
    (h : CombAt s 0 0 t) : ∃ u, run (5 * n) t = .next u ∧ CombAt s n 0 u := by
  induction n with
  | zero => exact ⟨t, rfl, h⟩
  | succ n ih =>
    obtain ⟨u, hu, hat⟩ := ih (by omega)
    obtain ⟨v, hv, hat'⟩ := CombAt.run_round (k := ⟨n, hn⟩) hr hturns hat
    exact ⟨v, (run_add_of_next hu).trans hv, hat'⟩

/-- After 64 rounds the accumulator holds the product (R107). -/
theorem CombAt.product (h : CombAt s 64 0 t) : t.c = clmul256 s.a s.b := by
  apply val8_injective
  rw [clmul256, val8_split8, h.c, partialProduct_end]

/-- `B * 2^64` in the shift buffer is `B` one word up, above a word 0. -/
theorem words_of_val5_eq_shiftLeft {x : W5} {b : W4}
    (h : val5 x = (val4 b).setWidth 320 <<< 64) :
    x[0] = 0 ∧ ∀ i : Fin 4, x[i.val + 1] = b[i] := by
  have hbit (q r : Nat) (hq : q < 5) (hr : r < 64) :
      x[q].getLsbD r = ((val4 b).setWidth 320 <<< 64).getLsbD (64 * q + r) := by
    rw [← h, getLsbD_val5_word x q r hq hr]
  constructor
  · apply BitVec.eq_of_getLsbD_eq
    intro r hr
    rw [hbit 0 r (by decide) hr, BitVec.getLsbD_shiftLeft]
    simp [hr]
  · intro i
    apply BitVec.eq_of_getLsbD_eq
    intro r hr
    have hword := getLsbD_val4_word b i r i.isLt hr
    rw [hbit (i + 1) r (by omega) hr, BitVec.getLsbD_shiftLeft, BitVec.getLsbD_setWidth,
      show 64 * (i.val + 1) + r - 64 = 64 * i.val + r by omega, hword]
    simp [show 64 * (i.val + 1) + r < 320 by omega, show 64 * i.val + r < 320 by omega,
      show ¬64 * (i.val + 1) + r < 64 by omega]

/-- Settles O36: `CINIT`, then the 64 rounds. -/
theorem cmulComputesProduct : Obligations.CmulComputesProduct := by
  intro s hr hturns hseq
  have hcinit : encode .cinit = .seq s.seq := by rw [hseq]; rfl
  have hstep := (step_of_encode_seq hr hturns hcinit).trans (exec_cinit s)
  obtain ⟨t, ht, hat⟩ := (combAt_cinit s).run_rounds hr hturns le_rfl
  obtain ⟨hlow, hhigh⟩ := words_of_val5_eq_shiftLeft hat.sb
  exact ⟨t, (run_succ_of_next hstep).trans ht, hat.product, hlow, hhigh, hat.seq, hat.a, hat.b,
    hat.bytes, hat.flags, hat.lens⟩

end Sys2Proof.Safety

/-! ## What is public (R109, R186) -/

namespace Sys2Proof.Safety
open Sys2Proof.Machine

variable {s t : State}

/-! ### Codes and operations without the byte an `OPWR` carries -/

/-- An operation without the byte that an `OPWR` carries. -/
def publicInstr : Instr → Instr
  | .opwrA _ => .opwrA 0
  | .opwrB _ => .opwrB 0
  | i => i

/-- A code without the byte that an `OPWR` carries. -/
def publicCode : Code → Code
  | .hcmd w => .hcmd (if w &&& 0xE00 == 0x200 then w &&& 0xF00 else w)
  | c => c

/-- What is public of a command, by its strobes: all of it but the byte of an `OPWR`. -/
theorem publicCode_mkHcmd (rst start opWr opSel : Bool) (v : Byte) :
    publicCode (.hcmd (mkHcmd rst start opWr opSel v)) =
      .hcmd (mkHcmd rst start opWr opSel (if !rst && !start && opWr then 0 else v)) := by
  have hstrobes : (mkHcmd rst start opWr false 0 == (0x200 : BitVec 12)) =
      (!rst && !start && opWr) := by
    revert rst start opWr; decide
  have hmask : mkHcmd rst start opWr opSel v &&& 0xF00 = mkHcmd rst start opWr opSel 0 := by
    rw [show (0xF00 : BitVec 12) = mkHcmd true true true true 0 from rfl, mkHcmd_and]
    simp
  rw [publicCode, mkHcmd_and_strobes, hstrobes, hmask]
  split <;> rfl

/-- A code without its secret byte stands for the operation without its secret byte. -/
theorem decode_publicCode (c : Code) : decode (publicCode c) = (decode c).map publicInstr := by
  cases c with
  | seq w =>
    change decodeSeq w = (decodeSeq w).map publicInstr
    cases hd : decodeSeq w with
    | error r => rfl
    | ok i =>
      have hi := encode_of_decodeSeq hd
      cases i with
      | opwrA | opwrB => cases hi
      | _ => rfl
  | hcmd w =>
    obtain ⟨rst, start, opWr, opSel, v, rfl⟩ := exists_mkHcmd w
    rw [publicCode_mkHcmd, decode, decode, decodeHcmd_mkHcmd, decodeHcmd_mkHcmd]
    cases rst with
    | true => rfl
    | false =>
      cases start with
      | true => cases opWr <;> rfl
      | false =>
        cases opWr with
        | true => cases opSel <;> rfl
        | false => rfl
  | hrd n => rfl
  | hstat => rfl

/-- Whether a command is a `RESET` is public. -/
theorem isReset_publicCode (c : Code) : isReset (publicCode c) = isReset c := by
  cases c with
  | hcmd w =>
    obtain ⟨rst, start, opWr, opSel, v, rfl⟩ := exists_mkHcmd w
    rw [publicCode_mkHcmd, isReset, isReset, getLsbD_mkHcmd_rst, getLsbD_mkHcmd_rst]
  | _ => rfl

/-- Operations of which the same is public are the same, or `OPWR` to the same operand. -/
theorem eq_or_opwr_of_publicInstr_eq {i j : Instr} (h : publicInstr i = publicInstr j) :
    i = j ∨ ∃ o v w, i = opwr o v ∧ j = opwr o w := by
  cases i with
  | opwrA v =>
    cases j with
    | opwrA w => exact .inr ⟨.a, v, w, rfl, rfl⟩
    | _ => cases h
  | opwrB v =>
    cases j with
    | opwrB w => exact .inr ⟨.b, v, w, rfl, rfl⟩
    | _ => cases h
  | _ =>
    cases j with
    | opwrA | opwrB => cases h
    | _ => exact .inl h

/-! ### Whose turn it is is public -/

/-- The code acted on in a turn, with the sequencer at a word. -/
def turnCode (w : BitVec 12) : Turn → Code
  | .sequencer => .seq w
  | .hcmd v => .hcmd v
  | .hrd n => .hrd n
  | .hstat => .hstat

theorem issued_eq_turnCode (s : State) :
    issued s = turnCode s.seq (s.turns.headD .sequencer) := by
  unfold issued
  split <;> simp [*, turnCode]

theorem publicCode_turnCode (w : BitVec 12) (v : Turn) :
    publicCode (turnCode w v) = turnCode w (publicTurn v) := by
  cases v <;> rfl

/-- What is public of the code acted on, in terms of what is public of the turns. -/
theorem publicCode_issued (s : State) :
    publicCode (issued s) = turnCode s.seq ((s.turns.map publicTurn).headD .sequencer) := by
  rw [issued_eq_turnCode, publicCode_turnCode]
  cases s.turns <;> rfl

theorem PublicEq.publicCode_issued_eq (h : PublicEq s t) :
    publicCode (issued s) = publicCode (issued t) := by
  rw [publicCode_issued, publicCode_issued, h.seq, h.turns]

theorem PublicEq.mayTake_eq (h : PublicEq s t) : mayTake s = mayTake t := by
  rw [mayTake, mayTake, h.wasReset, ← isReset_publicCode, h.publicCode_issued_eq,
    isReset_publicCode]

theorem PublicEq.decode_eq (h : PublicEq s t) :
    (decode (issued s)).map publicInstr = (decode (issued t)).map publicInstr := by
  rw [← decode_publicCode, ← decode_publicCode, h.publicCode_issued_eq]

/-! ### Every operation hides the data -/

theorem PublicEq.advance (h : PublicEq s t) : PublicEq (advance s) (advance t) where
  lena := h.lena
  lenb := h.lenb
  busy := h.busy
  done := h.done
  err := h.err
  seq := h.seq
  turns := by rw [advance_turns, advance_turns, List.map_tail, List.map_tail, h.turns]
  draws := h.draws
  wasReset := h.wasReset

theorem PublicEq.lengthsOk_eq (h : PublicEq s t) : lengthsOk s = lengthsOk t := by
  rw [lengthsOk, lengthsOk, h.lena, h.lenb]

theorem PublicEq.resValid_eq (h : PublicEq s t) : s.resValid = t.resValid := by
  rw [State.resValid, State.resValid, h.done, h.err]

theorem PublicEq.setSeq (h : PublicEq s t) (w : BitVec 12) :
    PublicEq (s.setSeq w) (t.setSeq w) :=
  { h with seq := rfl }

theorem PublicEq.setReply (h : PublicEq s t) (r r' : Reply) :
    PublicEq (s.setReply r) (t.setReply r') :=
  { h with }

theorem PublicEq.raise (h : PublicEq s t) (e : Exception) : PublicEq (raise e s) (raise e t) := by
  constructor <;> simp [h.turns, h.draws, h.wasReset]

theorem PublicEq.start (h : PublicEq s t) :
    PublicEq (s.flagsBusy.setSeq seqChk) (t.flagsBusy.setSeq seqChk) := by
  constructor <;> simp [h.lena, h.lenb, h.turns, h.draws, h.wasReset]

theorem PublicEq.appendByte (h : PublicEq s t) (o : Operand) (v w : Byte) :
    PublicEq (appendByte s o v) (appendByte t o w) := by
  cases o <;> constructor <;> simp [h.lena, h.lenb, h.busy, h.done, h.err, h.seq, h.turns, h.draws,
    h.wasReset]

/-- `OPWR` hides its byte (R141). -/
theorem PublicEq.exec_opwr (h : PublicEq s t) (o : Operand) (v w : Byte) :
    outcomePublicEq (exec (opwr o v) s) (exec (opwr o w) t) := by
  have hs (x : State) (y : Byte) : exec (opwr o y) x =
      if x.busy then .refused .opwrWhileBusy else .next (Machine.appendByte x o y) := by
    cases o <;> rfl
  rw [hs, hs, h.busy]
  split
  · rfl
  · exact h.appendByte o v w

/-- Every operation hides the data. -/
theorem PublicEq.exec (h : PublicEq s t) (i : Instr) :
    outcomePublicEq (exec i s) (exec i t) := by
  cases i with
  | wait | hnop => exact h
  | opwrA v => exact h.exec_opwr .a v v
  | opwrB v => exact h.exec_opwr .b v v
  | statrd => exact h.setReply _ _
  | packa | packb | cinit | fold | shl1 | rfold | unpack | fin | reset =>
    refine (?_ : PublicEq _ _)
    constructor <;> simp [h.lena, h.lenb, h.busy, h.done, h.err, h.turns, h.draws, h.wasReset]
  | chk =>
    rw [exec_chk, exec_chk, h.lengthsOk_eq]
    split
    · exact h.setSeq _
    · exact h.raise _
  | start =>
    rw [exec_start, exec_start, h.busy]
    split
    · rfl
    · exact h.start
  | resrd n =>
    rw [exec_resrd, exec_resrd, h.resValid_eq]
    split
    · exact h.setReply _ _
    · rfl

/-- The machine stops alike on the same reject. -/
theorem outcomePublicEq_stopOn (r : Reject) : outcomePublicEq (stopOn r) (stopOn r) := by
  cases r <;> rfl

/-- Settles O44: what is decoded is the same up to the byte of an `OPWR`, and every operation hides
the data. -/
theorem stepHidesData : Obligations.StepHidesData := by
  intro s t h
  have hdec := h.decode_eq
  rw [step, step, h.mayTake_eq]
  split
  · cases hs : decode (issued s) with
    | ok i =>
      cases ht : decode (issued t) with
      | ok j =>
        rw [hs, ht] at hdec
        rcases eq_or_opwr_of_publicInstr_eq (Except.ok.inj hdec) with rfl | ⟨o, v, w, rfl, rfl⟩
        · exact h.advance.exec i
        · exact h.advance.exec_opwr o v w
      | error r => rw [hs, ht] at hdec; cases hdec
    | error r =>
      cases ht : decode (issued t) with
      | ok j => rw [hs, ht] at hdec; cases hdec
      | error r' =>
        rw [hs, ht] at hdec
        cases hdec
        exact outcomePublicEq_stopOn r
  · rfl

/-- Publicly equal states have the same trace of `SEQ`, one step after the other. -/
theorem PublicEq.seqTrace_eq (h : PublicEq s t) (n : Nat) : seqTrace n s = seqTrace n t := by
  induction n generalizing s t with
  | zero => rfl
  | succ n ih =>
    have hstep := stepHidesData s t h
    rw [seqTrace, seqTrace, h.seq]
    cases hs : step s <;> cases ht : step t <;> rw [hs, ht] at hstep
    case succ.next.next => exact congrArg _ (ih hstep)
    all_goals exact hstep.elim

/-- Settles O45: the cycles are a function of the trace. -/
theorem tracesAreEqual : Obligations.TracesAreEqual :=
  fun n _ _ h => ⟨h.seqTrace_eq n, congrArg cycles (h.seqTrace_eq n)⟩

end Sys2Proof.Safety

/-! ## The polynomial of a value and the carry-less product (R8, R106, R107) -/

namespace Sys2Proof.Safety
open Sys2Proof.Machine Polynomial

section
variable {w : Nat}

/-- Coefficient `n` is bit `n`. -/
theorem coeff_poly (v : BitVec w) (n : Nat) :
    (poly v).coeff n = if v.getLsbD n then 1 else 0 := by
  have hterm (m : Nat) : (if v.getLsbD m then X ^ m else 0 : (ZMod 2)[X]).coeff n =
      if m = n then if v.getLsbD n then 1 else 0 else 0 := by
    by_cases hm : m = n
    · subst hm
      split <;> simp
    · split <;> simp [coeff_X_pow, Ne.symm hm]
  rw [poly, finsetSum_coeff, Finset.sum_congr rfl fun m _ => hterm m, Finset.sum_ite_eq']
  by_cases hn : n < w
  · simp [hn]
  · simp [hn, BitVec.getLsbD_of_ge v n (by omega)]

theorem poly_eq_iff {w' : Nat} {x : BitVec w} {y : BitVec w'} :
    poly x = poly y ↔ ∀ n, x.getLsbD n = y.getLsbD n := by
  rw [Polynomial.ext_iff]
  refine forall_congr' fun n => ?_
  rw [coeff_poly, coeff_poly]
  cases x.getLsbD n <;> cases y.getLsbD n <;> simp

theorem poly_injective {x y : BitVec w} (h : poly x = poly y) : x = y :=
  BitVec.eq_of_getLsbD_eq fun n _ => poly_eq_iff.mp h n

theorem poly_zero : poly (0 : BitVec w) = 0 := by
  simp [poly]

theorem poly_one (hw : 0 < w) : poly (1 : BitVec w) = 1 := by
  ext n
  rw [coeff_poly, coeff_one, BitVec.ofNat_eq_ofNat, BitVec.getLsbD_one]
  simp [hw]

/-- XOR is addition with coefficients in GF(2). -/
theorem poly_xor (x y : BitVec w) : poly (x ^^^ y) = poly x + poly y := by
  ext n
  rw [coeff_add, coeff_poly, coeff_poly, coeff_poly, BitVec.getLsbD_xor]
  cases x.getLsbD n <;> cases y.getLsbD n <;> decide

/-- A wider register holds the same polynomial. -/
theorem poly_setWidth {w' : Nat} (x : BitVec w) (h : w ≤ w') : poly (x.setWidth w') = poly x := by
  refine poly_eq_iff.mpr fun n => ?_
  rw [BitVec.getLsbD_setWidth]
  by_cases hn : n < w'
  · simp [hn]
  · simp [hn, BitVec.getLsbD_of_ge x n (by omega)]

/-- A shift that loses no bit is a product with a power of `X`. -/
theorem poly_shiftLeft {x : BitVec w} {m : Nat} (h : ∀ n, w ≤ n + m → x.getLsbD n = false) :
    poly (x <<< m) = X ^ m * poly x := by
  ext n
  rw [coeff_X_pow_mul', coeff_poly, coeff_poly, BitVec.getLsbD_shiftLeft]
  by_cases hm : m ≤ n
  · by_cases hn : n < w
    · simp [hm, hn]
    · simp [hm, hn, h (n - m) (by omega)]
  · simp [hm]

end

/-- A term of the carry-less product: `b * X^m`, which fits in 512 bits. -/
theorem poly_term (b : BitVec 256) {m : Nat} (hm : m ≤ 256) :
    poly (b.setWidth 512 <<< m) = X ^ m * poly b := by
  rw [poly_shiftLeft, poly_setWidth _ (by decide)]
  intro n hn
  rw [BitVec.getLsbD_setWidth, BitVec.getLsbD_of_ge b n (by omega), Bool.and_false]

/-- The terms of the bits below a bound add up to the product with those bits' polynomial. -/
theorem poly_clmulBelow (a b : BitVec 256) {m : Nat} (hm : m ≤ 256) :
    poly (clmulBelow a b m) =
      (∑ n ∈ Finset.range m, if a.getLsbD n then X ^ n else 0) * poly b := by
  induction m with
  | zero => rw [clmulBelow, poly_zero, Finset.sum_range_zero, zero_mul]
  | succ m ih =>
    have hterm : poly (if a.getLsbD m then b.setWidth 512 <<< m else 0) =
        (if a.getLsbD m then X ^ m else 0) * poly b := by
      cases a.getLsbD m
      · exact poly_zero.trans (zero_mul _).symm
      · exact poly_term b (by omega)
    rw [clmulBelow, poly_xor, ih (by omega), hterm, Finset.sum_range_succ, add_mul]

/-- The carry-less product is the product of polynomials (R107). -/
theorem poly_clmul256 (x y : W4) :
    poly (val8 (clmul256 x y)) = poly (val4 x) * poly (val4 y) := by
  rw [clmul256, val8_split8, poly_clmulBelow _ _ le_rfl, poly, poly]

/-- Products are equal when their polynomials are. -/
theorem poly_val8_injective {p q : W8} (h : poly (val8 p) = poly (val8 q)) : p = q :=
  val8_injective (poly_injective h)

theorem val4_xor4 (x y : W4) : val4 (xor4 x y) = val4 x ^^^ val4 y := by
  refine eq_of_word_bits (m := 4) fun q r hq hr => ?_
  rw [BitVec.getLsbD_xor, getLsbD_val4_word _ _ _ hq hr, getLsbD_val4_word _ _ _ hq hr,
    getLsbD_val4_word _ _ _ hq hr]
  simp [xor4]

theorem val8_xor8 (p q : W8) : val8 (xor8 p q) = val8 p ^^^ val8 q := by
  refine eq_of_word_bits (m := 8) fun n r hn hr => ?_
  rw [BitVec.getLsbD_xor, getLsbD_val8_word _ _ _ hn hr, getLsbD_val8_word _ _ _ hn hr,
    getLsbD_val8_word _ _ _ hn hr]
  simp [xor8]

/-- Settles O49: each law is the law of the polynomials, which decide the words. -/
theorem clmulIsPolynomialProduct : Obligations.ClmulIsPolynomialProduct := by
  refine ⟨poly_clmul256, fun x y => ?comm, fun x => ?zero, fun x => ?one, fun x y z => ?distrib⟩
  all_goals apply poly_val8_injective
  case comm => rw [poly_clmul256, poly_clmul256, mul_comm]
  case zero => rw [poly_clmul256, val4_split4, val8_split8, poly_zero, poly_zero, mul_zero]
  case one =>
    rw [poly_clmul256, val4_split4, val8_split8, poly_one (by decide), mul_one,
      poly_setWidth _ (by decide)]
  case distrib =>
    rw [val8_xor8, poly_xor, poly_clmul256, poly_clmul256, poly_clmul256, val4_xor4, poly_xor,
      mul_add]

/-- The terms of the bits below a bound reach no bit from `255` above the bound on. -/
theorem getLsbD_clmulBelow_of_ge (a b : BitVec 256) {m n : Nat} (h : m + 255 ≤ n) :
    (clmulBelow a b m).getLsbD n = false := by
  induction m with
  | zero => simp [clmulBelow]
  | succ m ih =>
    have hterm : (b.setWidth 512 <<< m).getLsbD n = false := by
      rw [BitVec.getLsbD_shiftLeft, BitVec.getLsbD_setWidth, BitVec.getLsbD_of_ge b _ (by omega),
        Bool.and_false, Bool.and_false]
    rw [clmulBelow, BitVec.getLsbD_xor, ih (by omega)]
    split <;> simp [hterm]

/-- Settles O50: bit 63 of word 7 is bit 511, which no term reaches. -/
theorem productHasDegree510 : Obligations.ProductHasDegree510 := by
  intro x y
  rw [← getLsbD_val8_word _ 7 63 (by decide) (by decide), clmul256, val8_split8]
  exact getLsbD_clmulBelow_of_ge _ _ le_rfl

end Sys2Proof.Safety

/-! ## The reducer's micro-operation, word by word (R121 to R123) -/

namespace Sys2Proof

/-- A word of the reduction phase, as a number. -/
theorem mkSeq_red_eq {n : Nat} (hn : n < 8) :
    mkSeq phRed 0 (BitVec.ofNat 3 n) = BitVec.ofNat 12 (0x600 + n) := by
  apply BitVec.eq_of_toNat_eq
  have hph : phRed.toNat = 3 := rfl
  have hk : (0 : BitVec 6).toNat = 0 := rfl
  rw [toNat_mkSeq, hph, hk, BitVec.toNat_ofNat, BitVec.toNat_ofNat]
  omega

end Sys2Proof

namespace Sys2Proof.Machine

/-- Word `i - 4` takes the low terms (R121). -/
theorem getElem_rfoldWords_low (p : W8) (ss : Fin 4) :
    (rfoldWords p ss)[ss.val] = p[ss.val] ^^^ lowTerms p[ss.val + 4] := by
  rw [getElem_rfoldWords, rfoldTerm_low]

/-- Word `i - 3` takes the high terms (R121). -/
theorem getElem_rfoldWords_high (p : W8) (ss : Fin 4) :
    (rfoldWords p ss)[ss.val + 1] = p[ss.val + 1] ^^^ highTerms p[ss.val + 4] := by
  rw [getElem_rfoldWords, rfoldTerm_high]

/-- Every other word keeps its value, the folded one among them (R122). -/
theorem getElem_rfoldWords_other (p : W8) {ss : Fin 4} {n : Nat} (hn : n < 8) (h : n ≠ ss.val)
    (h' : n ≠ ss.val + 1) : (rfoldWords p ss)[n] = p[n] := by
  rw [getElem_rfoldWords, rfoldTerm_other _ _ _ h h']
  exact BitVec.xor_zero

theorem xor_lowTerms (x t : Word) :
    x ^^^ lowTerms t = x ^^^ t ^^^ (t <<< 2) ^^^ (t <<< 5) ^^^ (t <<< 10) := by
  simp only [lowTerms, BitVec.xor_assoc]

theorem xor_highTerms (x t : Word) :
    x ^^^ highTerms t = x ^^^ (t >>> 62) ^^^ (t >>> 59) ^^^ (t >>> 54) := by
  simp only [highTerms, BitVec.xor_assoc]

/-- The successors of `RFOLD`, as numbers. -/
theorem seqAfterRfold_eq (ss : Fin 4) : seqAfterRfold ss =
    if 1 ≤ ss.val then BitVec.ofNat 12 (0x600 + (ss.val - 1)) else 0x800 :=
  if_congr Iff.rfl (mkSeq_red_eq (by omega)) rfl

end Sys2Proof.Machine

namespace Sys2Proof.Safety
open Sys2Proof.Machine

/-- A frame: what the modular reducer leaves as it was, all but `C` and `SEQ`. -/
structure RedFrame (s t : State) : Prop extends CombFrame s t where
  sb : t.sb = s.sb

theorem RedFrame.trans {s t u : State} (h : RedFrame s t) (h' : RedFrame t u) : RedFrame s u where
  toCombFrame := h.toCombFrame.trans h'.toCombFrame
  sb := h'.sb.trans h.sb

theorem redFrame_setC_setSeq (s : State) (x : W8) (w : BitVec 12) :
    RedFrame s ((s.setC x).setSeq w) where
  toCombFrame := combFrame_setC_setSeq s x w
  sb := rfl

/-- Settles O17: the two words that take terms, and the words that take none. -/
theorem rfoldFoldsWord : Obligations.RfoldFoldsWord := by
  refine fun ss => ⟨congrArg Code.seq (mkSeq_red_eq (by omega)), fun s =>
    ⟨_, exec_rfold s ss, ?low, ?high, fun n => ?other, seqAfterRfold_eq ss, rfl, rfl, rfl, ?frame⟩⟩
  case low => exact (getElem_rfoldWords_low s.c ss).trans (xor_lowTerms _ _)
  case high => exact (getElem_rfoldWords_high s.c ss).trans (xor_highTerms _ _)
  case other => exact getElem_rfoldWords_other s.c n.isLt
  case frame =>
    have hf := redFrame_setC_setSeq s (rfoldWords s.c ss) (seqAfterRfold ss)
    exact ⟨hf.bytes, hf.flags, hf.lens⟩

end Sys2Proof.Safety

/-! ## The four folds compute the remainder (R124, R127) -/

namespace Sys2Proof.Safety
open Sys2Proof.Machine

variable {s t : State}

/-- `FoldedTo s ss t`: from the first word of `REDC` in `s`, state `t` has come past `RFOLD 4 + ss`.
The words still to fold have the remainder of the whole value (R124); the words above `C[4]` are as
they were, and `C[4]` has taken the high terms of `C[7]`. -/
structure FoldedTo (s : State) (ss : Fin 4) (t : State) : Prop extends RedFrame s t where
  seq : t.seq = seqAfterRfold ss
  residue : reduce512 (lowPart t.c (ss.val + 3)) = reduce512 s.c
  word_four : t.c[4] = s.c[4] ^^^ highTerms s.c[7]
  words_above : ∀ n (hn : n < 8), 5 ≤ n → t.c[n] = s.c[n]

/-- `RFOLD 7` folds the top word. -/
theorem foldedTo_first (s : State) :
    FoldedTo s 3 ((s.setC (rfoldWords s.c 3)).setSeq (seqAfterRfold 3)) where
  toRedFrame := redFrame_setC_setSeq s _ _
  seq := rfl
  residue := (reduce512_lowPart_rfoldWords s.c 3).trans (congrArg reduce512 (lowPart_seven s.c))
  word_four := getElem_rfoldWords_high s.c 3
  words_above n hn h := getElem_rfoldWords_other s.c hn (show n ≠ 3 by omega)
    (show n ≠ 3 + 1 by omega)

/-- Each later `RFOLD` folds the next word down, and writes below `C[4]` only. -/
theorem FoldedTo.rfold {ss ss' : Fin 4} (h : FoldedTo s ss t) (hss : ss.val = ss'.val + 1) :
    FoldedTo s ss' ((t.setC (rfoldWords t.c ss')).setSeq (seqAfterRfold ss')) where
  toRedFrame := h.toRedFrame.trans (redFrame_setC_setSeq t _ _)
  seq := rfl
  residue := by
    have hres := h.residue
    rw [hss, Nat.add_right_comm, Nat.add_assoc] at hres
    exact (reduce512_lowPart_rfoldWords t.c ss').trans hres
  word_four := (getElem_rfoldWords_other t.c (by decide) (by omega) (by omega)).trans h.word_four
  words_above n hn h5 :=
    (getElem_rfoldWords_other t.c hn (by omega) (by omega)).trans (h.words_above n hn h5)

/-- The sequencer, alone with the machine, goes on with the next `RFOLD`. -/
theorem FoldedTo.exists_step (hr : s.wasReset = true) (hturns : s.turns = []) {ss ss' : Fin 4}
    (h : FoldedTo s ss t) (hss : ss.val = ss'.val + 1) :
    ∃ u, step t = .next u ∧ FoldedTo s ss' u := by
  have hcode : encode (.rfold ss') = .seq t.seq := by
    rw [h.seq, seqAfterRfold, if_pos (by omega), hss]
    rfl
  exact ⟨_, (step_of_encode_seq (h.wasReset.trans hr) (h.turns.trans hturns) hcode).trans
    (exec_rfold t ss'), h.rfold hss⟩

/-- Settles O37: `RFOLD 7`, then the three folds below it; the four low words left are their own
remainder. -/
theorem redcComputesRemainder : Obligations.RedcComputesRemainder := by
  intro s hr hturns hseq
  have hcode : encode (.rfold 3) = .seq s.seq := by rw [hseq]; rfl
  have hseven := (step_of_encode_seq hr hturns hcode).trans (exec_rfold s 3)
  obtain ⟨u, hsix, hu⟩ := (foldedTo_first s).exists_step (ss' := 2) hr hturns rfl
  obtain ⟨v, hfive, hv⟩ := hu.exists_step (ss' := 1) hr hturns rfl
  obtain ⟨t, hfour, ht⟩ := hv.exists_step (ss' := 0) hr hturns rfl
  have hrun : run 4 s = .next t := by
    rw [run_succ_of_next hseven, run_succ_of_next hsix, run_succ_of_next hfive,
      run_succ_of_next hfour, run_zero]
  exact ⟨t, hrun, (reduce512_lowPart_three t.c).symm.trans ht.residue,
    ht.word_four.trans (xor_highTerms _ _), ht.words_above 5 (by decide) (by decide),
    ht.words_above 6 (by decide) (by decide), ht.words_above 7 (by decide) (by decide),
    ht.seq, ht.a, ht.b, ht.sb, ht.bytes, ht.flags, ht.lens⟩

end Sys2Proof.Safety

/-! ## The reducer and the remainder of polynomials (R2, R123, R124, R126, R128) -/

namespace Sys2Proof.Safety
open Sys2Proof.Machine Polynomial

theorem monic_fieldPoly : fieldPoly.Monic := by
  unfold fieldPoly
  monicity!

theorem degree_fieldPoly : fieldPoly.degree = 256 := by
  unfold fieldPoly
  compute_degree!

/-- The polynomial of a value has its degree below the value's width. -/
theorem degree_poly_lt {w : Nat} (v : BitVec w) : (poly v).degree < w := by
  rw [degree_lt_iff_coeff_zero]
  intro n hn
  rw [coeff_poly, BitVec.getLsbD_of_ge v n hn]
  rfl

/-- A value of 256 bits is its own remainder. -/
theorem poly_modByMonic_self (v : BitVec 256) : poly v %ₘ fieldPoly = poly v := by
  rw [modByMonic_eq_self_iff monic_fieldPoly, degree_fieldPoly]
  exact degree_poly_lt v

/-- The shifts of `timesF` are a product with `f` as long as they lose no bit (R2). -/
theorem poly_timesF {x : BitVec 512} (hx : ∀ m ≥ 256, x.getLsbD m = false) :
    poly (timesF x) = fieldPoly * poly x := by
  have term (d : Nat) (hd : d ≤ 256) : poly (x <<< d) = X ^ d * poly x :=
    poly_shiftLeft fun n hn => hx n (by omega)
  unfold fieldPoly
  rw [timesF, poly_xor, poly_xor, poly_xor, poly_xor, term 256 le_rfl, term 10 (by decide),
    term 5 (by decide), term 2 (by decide)]
  simp only [add_mul, one_mul]

/-- Adding a multiple of `f` by a value of degree below 256 keeps the residue. -/
theorem fieldPoly_dvd_sub_xor_timesF (p : BitVec 512) {x : BitVec 512}
    (hx : ∀ m ≥ 256, x.getLsbD m = false) : fieldPoly ∣ poly p - poly (p ^^^ timesF x) := by
  rw [poly_xor, poly_timesF hx, sub_add_cancel_left, dvd_neg]
  apply dvd_mul_right

/-! ### `RFOLD` -/

/-- Settles O18: by R123 `RFOLD` adds `t * X^(64 ss) * f`, of which it clears the top word. -/
theorem rfoldKeepsResidue : Obligations.RfoldKeepsResidue := by
  refine fun ss s => ⟨_, exec_rfold s ss, ?_⟩
  rw [State.setSeq_c, State.setC_c, val8_lowPart_rfoldWords]
  refine fieldPoly_dvd_sub_xor_timesF _ fun m hm => ?_
  rw [BitVec.getLsbD_shiftLeft, BitVec.getLsbD_setWidth,
    BitVec.getLsbD_of_ge s.c[ss.val + 4] _ (by omega), Bool.and_false, Bool.and_false]

/-! ### The bit-serial division -/

theorem getLsbD_one_shiftLeft_of_gt {n m : Nat} (h : m > n) :
    (1#512 <<< n).getLsbD m = false := by
  rw [BitVec.getLsbD_shiftLeft, BitVec.getLsbD_one]
  simp [show m - n ≠ 0 by omega]

/-- The division keeps the residue: it adds multiples `X^n * f` only. -/
theorem fieldPoly_dvd_sub_remBelow {n : Nat} (hn : n ≤ 256) (p : BitVec 512) :
    fieldPoly ∣ poly p - poly (remBelow n p) := by
  induction n generalizing p with
  | zero => rw [remBelow, sub_self]; exact dvd_zero _
  | succ n ih =>
    rw [remBelow]
    split
    case isFalse => exact ih (by omega) p
    case isTrue =>
      have hone : ∀ m ≥ 256, (1#512 <<< n).getLsbD m = false :=
        fun m hm => getLsbD_one_shiftLeft_of_gt (by omega)
      rw [← timesF_one_shiftLeft, ← sub_add_sub_cancel]
      exact dvd_add (fieldPoly_dvd_sub_xor_timesF p hone) (ih (by omega) _)

/-- A multiple of `f` by a value of degree at most `n` has degree at most `256 + n`. -/
theorem getLsbD_timesF_of_gt {x : BitVec 512} {n m : Nat} (hx : ∀ m > n, x.getLsbD m = false)
    (hm : m > 256 + n) : (timesF x).getLsbD m = false := by
  simp [timesF, BitVec.getLsbD_shiftLeft, hx (m - 256) (by omega), hx (m - 10) (by omega),
    hx (m - 5) (by omega), hx (m - 2) (by omega), hx m (by omega)]

/-- The division clears the bits from 256 on: each step clears the topmost and sets none above. -/
theorem getLsbD_remBelow_of_ge {n : Nat} (hn : n ≤ 256) {p : BitVec 512}
    (hp : ∀ m ≥ 256 + n, p.getLsbD m = false) : ∀ m ≥ 256, (remBelow n p).getLsbD m = false := by
  induction n generalizing p with
  | zero => exact hp
  | succ n ih =>
    have hone : ∀ m > n, (1#512 <<< n).getLsbD m = false := fun _ => getLsbD_one_shiftLeft_of_gt
    rw [remBelow]
    refine ih (by omega) fun m hm => ?_
    rw [← timesF_one_shiftLeft]
    rcases Nat.eq_or_lt_of_le hm with rfl | hm
    · cases hb : p.getLsbD (256 + n) with
      | false => exact hb
      | true =>
        rw [if_pos rfl, BitVec.getLsbD_xor, hb, getLsbD_timesF_top (by omega) hone,
          BitVec.getLsbD_shiftLeft, BitVec.getLsbD_one]
        simp [show n < 512 by omega]
    · have habove := hp m (by omega)
      split
      · rw [BitVec.getLsbD_xor, habove, getLsbD_timesF_of_gt hone hm, Bool.xor_false]
      · exact habove

/-- The polynomial of the words of `reduce512`: the division's result, of which no bit is lost. -/
theorem poly_reduce512 (p : W8) :
    poly (val4 (reduce512 p)) = poly (remBelow 256 (val8 p)) := by
  have hsmall := getLsbD_remBelow_of_ge (n := 256) le_rfl (p := val8 p)
    fun m hm => BitVec.getLsbD_of_ge _ m hm
  rw [reduce512, val4_split4, poly_eq_iff]
  intro n
  rw [BitVec.getLsbD_setWidth]
  by_cases hn : n < 256
  · simp [hn]
  · simp [hn, hsmall n (by omega)]

/-- Congruent polynomials over GF(2) have one remainder. It is stated for a divisor that is a
variable: unifying the library's lemma with `fieldPoly` in place would unfold `X ^ 256`. -/
theorem modByMonic_eq_of_dvd_sub_gf2 {f p q : (ZMod 2)[X]} (hf : f.Monic) (h : f ∣ p - q) :
    p %ₘ f = q %ₘ f :=
  modByMonic_eq_of_dvd_sub hf h

/-- Settles O51: the division keeps the residue, and what it leaves has degree below 256. -/
theorem reduceIsRemainder : Obligations.ReduceIsRemainder := by
  intro p
  have hdvd : fieldPoly ∣ poly (val8 p) - poly (val4 (reduce512 p)) := by
    rw [poly_reduce512]
    exact fieldPoly_dvd_sub_remBelow le_rfl (val8 p)
  rw [modByMonic_eq_of_dvd_sub_gf2 monic_fieldPoly hdvd, poly_modByMonic_self]

/-! ### The laws of the remainder -/

/-- Elements are equal when their polynomials are. -/
theorem poly_val4_injective {v w : W4} (h : poly (val4 v) = poly (val4 w)) : v = w :=
  val4_injective (poly_injective h)

/-- Settles O52: the first two laws are laws of the remainder of polynomials; the third is one
division. -/
theorem reduceLaws : Obligations.ReduceLaws := by
  refine ⟨fun v => poly_val4_injective ?small, fun p q => poly_val4_injective ?linear, ?power⟩
  case small =>
    rw [reduceIsRemainder, val8_split8, poly_setWidth _ (by decide), poly_modByMonic_self]
  case linear =>
    rw [reduceIsRemainder, val8_xor8, poly_xor, add_modByMonic, val4_xor4, poly_xor,
      reduceIsRemainder, reduceIsRemainder]
  case power => decide +kernel

end Sys2Proof.Safety

/-! ## The product of buffers as a product of polynomials modulo f (R2, R150 to R155) -/

namespace Sys2Proof.Safety
open Sys2Proof.Machine Polynomial

/-- A buffer's polynomial is that of its packed words, as one value (R90). -/
theorem bufPoly_eq_poly (x : Buf32) : bufPoly x = poly (val4 (pack x)) :=
  (packKeepsPolynomial x).symm

/-- Buffers are equal when their polynomials are. -/
theorem bufPoly_injective {x y : Buf32} (h : bufPoly x = bufPoly y) : x = y := by
  rw [bufPoly_eq_poly, bufPoly_eq_poly] at h
  rw [← unpack_pack x, poly_val4_injective h, unpack_pack]

/-- A buffer's polynomial is its own remainder. -/
theorem bufPoly_modByMonic_self (x : Buf32) : bufPoly x %ₘ fieldPoly = bufPoly x := by
  rw [bufPoly_eq_poly, poly_modByMonic_self]

/-- The product of buffers is the product of polynomials modulo `f` (R150). -/
theorem bufPoly_mulBuf (x y : Buf32) :
    bufPoly (mulBuf x y) = (bufPoly x * bufPoly y) %ₘ fieldPoly := by
  rw [bufPoly_eq_poly, bufPoly_eq_poly x, bufPoly_eq_poly y, mulBuf, pack_unpack,
    reduceIsRemainder, poly_clmul256]

/-- Settles O53. -/
theorem multiplyIsFieldProduct : Obligations.MultiplyIsFieldProduct := by
  refine ⟨bufPoly_mulBuf, fun x y hx hy => if_pos ⟨hx, hy⟩, fun x y h => if_neg ?_⟩
  rintro ⟨hx, hy⟩
  exact h.elim (absurd hx) (absurd hy)

/-- Settles O54. -/
theorem multiplyCommutes : Obligations.MultiplyCommutes := by
  intro x y
  apply bufPoly_injective
  rw [bufPoly_mulBuf, bufPoly_mulBuf, mul_comm]

/-! ### The remainder of a product depends on the remainders of its factors -/

/-- A factor may be replaced by its remainder. It is stated for a divisor that is a variable, as
`modByMonic_eq_of_dvd_sub_gf2` is. -/
theorem modByMonic_mul_modByMonic_gf2 {f : (ZMod 2)[X]} (hf : f.Monic) (p q : (ZMod 2)[X]) :
    (p %ₘ f * q) %ₘ f = (p * q) %ₘ f := by
  apply modByMonic_eq_of_dvd_sub_gf2 hf
  rw [← sub_mul]
  exact (dvd_modByMonic_sub p f).mul_right q

/-- A product of three buffers, the first two multiplied first. -/
theorem bufPoly_mulBuf_mulBuf (x y z : Buf32) :
    bufPoly (mulBuf (mulBuf x y) z) = (bufPoly x * bufPoly y * bufPoly z) %ₘ fieldPoly := by
  rw [bufPoly_mulBuf, bufPoly_mulBuf, modByMonic_mul_modByMonic_gf2 monic_fieldPoly]

/-- Settles O57: either way the polynomial is the remainder of the product of all three. -/
theorem multiplyAssociates : Obligations.MultiplyAssociates := by
  intro x y z
  apply bufPoly_injective
  rw [multiplyCommutes x (mulBuf y z), bufPoly_mulBuf_mulBuf, bufPoly_mulBuf_mulBuf,
    mul_comm (bufPoly y * bufPoly z), mul_assoc]

/-! ### XOR, `ONE` and `ZERO` -/

/-- Packing takes the byte-wise XOR to the word-wise one. -/
theorem pack_xorBuf (x y : Buf32) : val4 (pack (xorBuf x y)) = val4 (pack x) ^^^ val4 (pack y) := by
  apply BitVec.eq_of_getLsbD_eq
  intro n hn
  rw [BitVec.getLsbD_xor, getLsbD_val4_pack _ hn, getLsbD_val4_pack _ hn, getLsbD_val4_pack _ hn]
  simp [xorBuf]

/-- XOR of buffers is addition (R154). -/
theorem bufPoly_xorBuf (x y : Buf32) : bufPoly (xorBuf x y) = bufPoly x + bufPoly y := by
  rw [bufPoly_eq_poly, bufPoly_eq_poly x, bufPoly_eq_poly y, pack_xorBuf, poly_xor]

/-- Settles O56. -/
theorem multiplyDistributes : Obligations.MultiplyDistributes := by
  intro x y z
  apply bufPoly_injective
  rw [bufPoly_mulBuf, bufPoly_xorBuf, bufPoly_xorBuf, mul_add, add_modByMonic, bufPoly_mulBuf,
    bufPoly_mulBuf]

/-- A buffer with byte 0 alone holds that byte's polynomial. -/
theorem bufPoly_smallBuf (b : Byte) : bufPoly (smallBuf b) = poly b := by
  rw [bufPoly_eq_poly, poly_eq_iff]
  intro n
  by_cases hn : n < 8
  · rw [getLsbD_val4_pack _ (by omega)]
    simp [smallBuf, Nat.div_eq_of_lt hn, Nat.mod_eq_of_lt hn]
  · rw [BitVec.getLsbD_of_ge b n (by omega)]
    by_cases hn' : n < 256
    · rw [getLsbD_val4_pack _ hn']
      simp [smallBuf, show ¬n < 8 from hn]
    · exact BitVec.getLsbD_of_ge _ n (by omega)

/-- `ONE` is the polynomial 1 (R153). -/
theorem bufPoly_one : bufPoly (smallBuf 1) = 1 :=
  (bufPoly_smallBuf 1).trans (poly_one (by decide))

/-- `ZERO` is the polynomial 0 (R153). -/
theorem bufPoly_zero : bufPoly (smallBuf 0) = 0 :=
  (bufPoly_smallBuf 0).trans poly_zero

/-- Settles O55: the laws with the constant on the right, and commutativity. -/
theorem multiplyByOneAndZero : Obligations.MultiplyByOneAndZero := by
  intro x
  have hone : mulBuf x (smallBuf 1) = x := by
    apply bufPoly_injective
    rw [bufPoly_mulBuf, bufPoly_one, mul_one, bufPoly_modByMonic_self]
  have hzero : mulBuf x (smallBuf 0) = smallBuf 0 := by
    apply bufPoly_injective
    rw [bufPoly_mulBuf, bufPoly_zero, mul_zero, zero_modByMonic]
  exact ⟨hone, (multiplyCommutes _ _).trans hone, hzero, (multiplyCommutes _ _).trans hzero⟩

end Sys2Proof.Safety

/-! ## 256 squarings (R157) -/

namespace Sys2Proof.Safety
open Sys2Proof.Machine Polynomial

/-! ### The square of a value: its bits moved apart -/

/-- The 512 bits in blocks of `m` ones and `m` zeros, the lowest block of ones. -/
def blockMask (m : Nat) : BitVec 512 :=
  (((BitVec.allOnes m).setWidth (2 * m)).replicate (256 / m)).setWidth 512

/-- `InBlocks m x y`: `y` holds the bits of `x` in blocks of `m`, each with `m` zeros above it. -/
def InBlocks (m : Nat) (x : BitVec 256) (y : BitVec 512) : Prop :=
  ∀ j < 512, y.getLsbD j = (decide (j % (2 * m) < m) && x.getLsbD (j / (2 * m) * m + j % m))

/-- Moves the upper half of each block of `2 * m` bits up by `m`. -/
def halveBlocks (m : Nat) (y : BitVec 512) : BitVec 512 := (y ^^^ y <<< m) &&& blockMask m

theorem inBlocks_setWidth (x : BitVec 256) : InBlocks 256 x (x.setWidth 512) := by
  intro j hj
  rw [BitVec.getLsbD_setWidth]
  by_cases h : j < 256
  · simp [hj, h, Nat.mod_eq_of_lt, Nat.div_eq_of_lt]
  · simp [h, BitVec.getLsbD_of_ge x j (by omega), Nat.mod_eq_of_lt hj]

/-- The block sizes that halving goes through. -/
def blockSizes : List Nat := [1, 2, 4, 8, 16, 32, 64, 128]

/-- Bit `j` of the mask, by its place in its double block. -/
theorem getLsbD_blockMask {m : Nat} (hm : m ∈ blockSizes) {j : Nat} (hj : j < 512) :
    (blockMask m).getLsbD j = decide (j % (2 * m) < m) := by
  have hpos : 0 < m := by fin_cases hm <;> decide
  have hfill : 2 * m * (256 / m) = 512 := by fin_cases hm <;> rfl
  have hmod : j % (2 * m) < 2 * m := Nat.mod_lt _ (by omega)
  rw [blockMask, BitVec.getLsbD_setWidth, BitVec.getLsbD_replicate, BitVec.getLsbD_setWidth,
    BitVec.getLsbD_allOnes, hfill]
  simp [hj, hmod]

/-- A bit below the middle of its double block stays where it is, and none is moved onto it. -/
theorem block_low {m : Nat} (hm : m ∈ blockSizes) {j : Nat} (hlow : j % (2 * m) < m)
    (h : j % (2 * (2 * m)) < 2 * m) :
    (j < m ∨ ¬(j - m) % (2 * (2 * m)) < 2 * m) ∧
      j / (2 * (2 * m)) * (2 * m) + j % (2 * m) = j / (2 * m) * m + j % m := by
  fin_cases hm <;> omega

/-- A bit above the middle of its double block comes from `m` places below. -/
theorem block_high {m : Nat} (hm : m ∈ blockSizes) {j : Nat} (hlow : j % (2 * m) < m)
    (h : ¬j % (2 * (2 * m)) < 2 * m) :
    m ≤ j ∧ (j - m) % (2 * (2 * m)) < 2 * m ∧
      (j - m) / (2 * (2 * m)) * (2 * m) + (j - m) % (2 * m) = j / (2 * m) * m + j % m := by
  fin_cases hm <;> omega

/-- Halving the blocks. -/
theorem InBlocks.halve {m : Nat} (hm : m ∈ blockSizes) {x : BitVec 256}
    {y : BitVec 512} (h : InBlocks (2 * m) x y) : InBlocks m x (halveBlocks m y) := by
  intro j hj
  rw [halveBlocks, BitVec.getLsbD_and, getLsbD_blockMask hm hj, BitVec.getLsbD_xor,
    BitVec.getLsbD_shiftLeft, h j hj, h (j - m) (by omega), Bool.and_comm]
  by_cases hlow : j % (2 * m) < m
  · by_cases hdouble : j % (2 * (2 * m)) < 2 * m
    · obtain ⟨hnone, hplace⟩ := block_low hm hlow hdouble
      rcases hnone with hnone | hnone <;> simp [hlow, hdouble, hplace, hnone]
    · obtain ⟨hle, hfrom, hplace⟩ := block_high hm hlow hdouble
      simp [hlow, hdouble, hplace, hfrom, hj, Nat.not_lt.mpr hle]
  · simp [hlow]

/-- The bits of a value moved apart, a zero between each two. -/
def spreadBits (x : BitVec 256) : BitVec 512 :=
  halveBlocks 1 <| halveBlocks 2 <| halveBlocks 4 <| halveBlocks 8 <| halveBlocks 16 <|
    halveBlocks 32 <| halveBlocks 64 <| halveBlocks 128 <| x.setWidth 512

theorem inBlocks_spreadBits (x : BitVec 256) : InBlocks 1 x (spreadBits x) :=
  .halve (by decide) <| .halve (by decide) <| .halve (by decide) <| .halve (by decide) <|
    .halve (by decide) <| .halve (by decide) <| .halve (by decide) <| .halve (by decide) <|
    inBlocks_setWidth x

/-- Over GF(2) the square of a polynomial is the polynomial in `X ^ 2`. -/
theorem poly_spreadBits (x : BitVec 256) : poly (spreadBits x) = poly x ^ 2 := by
  rw [← ZMod.expand_card]
  ext n
  rw [coeff_expand (by decide), coeff_poly, coeff_poly]
  by_cases hn : n < 512
  · rw [inBlocks_spreadBits x n hn, Nat.mul_one, Nat.mod_one, Nat.add_zero, Nat.mul_one]
    by_cases heven : 2 ∣ n
    · simp [heven, Nat.mod_eq_zero_of_dvd heven]
    · simp [heven, show n % 2 ≠ 0 by omega]
  · rw [BitVec.getLsbD_of_ge (spreadBits x) n (by omega),
      BitVec.getLsbD_of_ge x (n / 2) (by omega)]
    simp

/-! ### The square modulo f -/

/-- Adds the multiple of `f` that moves the bits from 256 on down. -/
def foldHigh (p : BitVec 512) : BitVec 512 := p ^^^ timesF (p >>> 256)

theorem fieldPoly_dvd_sub_foldHigh (p : BitVec 512) :
    fieldPoly ∣ poly p - poly (foldHigh p) := by
  rw [foldHigh]
  refine fieldPoly_dvd_sub_xor_timesF p fun m hm => ?_
  rw [BitVec.getLsbD_ushiftRight, BitVec.getLsbD_of_ge p _ (by omega)]

/-- What is moved down spreads over 10 places more. -/
theorem getLsbD_foldHigh_of_ge {p : BitVec 512} {d : Nat}
    (hp : ∀ m ≥ 256 + d, p.getLsbD m = false) {m : Nat} (hm : 256 ≤ m) (hd : d + 10 ≤ m) :
    (foldHigh p).getLsbD m = false := by
  have above (k : Nat) (hk : k ≤ 10) : (p >>> 256 <<< k).getLsbD m = false := by
    rw [BitVec.getLsbD_shiftLeft, BitVec.getLsbD_ushiftRight, hp (256 + (m - k)) (by omega),
      Bool.and_false]
  have self := above 0 (by omega)
  rw [BitVec.shiftLeft_zero] at self
  have back : (p >>> 256 <<< 256).getLsbD m = p.getLsbD m := by
    rw [BitVec.getLsbD_shiftLeft, BitVec.getLsbD_ushiftRight, Nat.add_sub_cancel' hm]
    by_cases h : m < 512
    · simp [h, hm]
    · simp [h, BitVec.getLsbD_of_ge p m (by omega)]
  simp only [foldHigh, timesF, BitVec.getLsbD_xor, back, above 10 le_rfl, above 5 (by decide),
    above 2 (by decide), self, Bool.xor_false, Bool.xor_self]

/-- Two folds leave the remainder: the first leaves 10 bits above 256, the second none. -/
theorem poly_setWidth_foldHigh_foldHigh (p : BitVec 512) :
    poly ((foldHigh (foldHigh p)).setWidth 256) = poly p %ₘ fieldPoly := by
  have hlow (m : Nat) (hm : 256 ≤ m) : (foldHigh (foldHigh p)).getLsbD m = false := by
    refine getLsbD_foldHigh_of_ge (d := 10) (fun n hn => ?_) hm (by omega)
    exact getLsbD_foldHigh_of_ge (d := 256) (fun k hk => BitVec.getLsbD_of_ge p k hk) (by omega) hn
  have hkeep : poly ((foldHigh (foldHigh p)).setWidth 256) = poly (foldHigh (foldHigh p)) := by
    refine poly_eq_iff.mpr fun n => ?_
    rw [BitVec.getLsbD_setWidth]
    by_cases hn : n < 256
    · simp [hn]
    · simp [hn, hlow n (by omega)]
  have hdvd := dvd_add (fieldPoly_dvd_sub_foldHigh p) (fieldPoly_dvd_sub_foldHigh (foldHigh p))
  rw [sub_add_sub_cancel, ← hkeep] at hdvd
  rw [modByMonic_eq_of_dvd_sub_gf2 monic_fieldPoly hdvd, poly_modByMonic_self]

/-- The square of a field element as a value, computed without `clmul256` and the bit-serial
division: cheap enough to iterate 256 times. -/
def fieldSquare (x : BitVec 256) : BitVec 256 :=
  (foldHigh (foldHigh (spreadBits x))).setWidth 256

theorem poly_fieldSquare (x : BitVec 256) : poly (fieldSquare x) = poly x ^ 2 %ₘ fieldPoly := by
  rw [fieldSquare, poly_setWidth_foldHigh_foldHigh, poly_spreadBits]

/-- `fieldSquare` is the machine's square. -/
theorem fieldSquare_pack (x : Buf32) : fieldSquare (val4 (pack x)) = val4 (pack (mulBuf x x)) := by
  apply poly_injective
  rw [poly_fieldSquare, ← bufPoly_eq_poly, ← bufPoly_eq_poly, bufPoly_mulBuf, sq]

/-! ### Repeated squares -/

theorem modByMonic_pow_modByMonic_gf2 {f : (ZMod 2)[X]} (hf : f.Monic) (p : (ZMod 2)[X]) (m : Nat) :
    (p %ₘ f) ^ m %ₘ f = p ^ m %ₘ f :=
  modByMonic_eq_of_dvd_sub_gf2 hf ((dvd_modByMonic_sub p f).trans (sub_dvd_pow_sub_pow _ _ m))

theorem poly_iterate_fieldSquare (n : Nat) (x : BitVec 256) :
    poly (fieldSquare^[n] x) = poly x ^ 2 ^ n %ₘ fieldPoly := by
  induction n with
  | zero => rw [Function.iterate_zero_apply, pow_zero, pow_one, poly_modByMonic_self]
  | succ n ih =>
    rw [Function.iterate_succ_apply', poly_fieldSquare, ih,
      modByMonic_pow_modByMonic_gf2 monic_fieldPoly, ← pow_mul, ← pow_succ]

theorem pack_iterate_square (n : Nat) (x : Buf32) :
    val4 (pack ((fun y => mulBuf y y)^[n] x)) = fieldSquare^[n] (val4 (pack x)) := by
  induction n with
  | zero => rfl
  | succ n ih =>
    rw [Function.iterate_succ_apply', Function.iterate_succ_apply', ← fieldSquare_pack, ih]

/-- Over GF(2) the power `2 ^ n` of a polynomial is the polynomial in that power of `X`. -/
theorem pow_two_pow_eq_comp_gf2 (p : (ZMod 2)[X]) (n : Nat) : p ^ 2 ^ n = p.comp (X ^ 2 ^ n) := by
  induction n with
  | zero => rw [pow_zero, pow_one, pow_one, comp_X]
  | succ n ih =>
    rw [pow_succ, pow_mul, ih, ← ZMod.expand_card, expand_eq_comp_X_pow, comp_assoc, X_pow_comp,
      ← pow_mul, mul_comm 2]

/-- If repeated squaring modulo `f` returns `X`, it returns every polynomial. -/
theorem pow_two_pow_modByMonic_gf2 {f : (ZMod 2)[X]} (hf : f.Monic) {n : Nat}
    (h : X ^ 2 ^ n %ₘ f = X) (p : (ZMod 2)[X]) : p ^ 2 ^ n %ₘ f = p %ₘ f := by
  have hX : f ∣ X ^ 2 ^ n - X := by
    have hdvd := dvd_modByMonic_sub (X ^ 2 ^ n) f
    rw [h] at hdvd
    exact dvd_sub_comm.mp hdvd
  have hcomp := sub_dvd_eval_sub (X ^ 2 ^ n) X (p.map C)
  rw [← eval₂_eq_eval_map, ← eval₂_eq_eval_map, eval₂_C_X] at hcomp
  apply modByMonic_eq_of_dvd_sub_gf2 hf
  rw [pow_two_pow_eq_comp_gf2]
  exact hX.trans hcomp

theorem poly_two : poly (2 : BitVec 256) = X := by
  have hshift : (2 : BitVec 256) = (1 : BitVec 256) <<< 1 := rfl
  rw [hshift, poly_shiftLeft, poly_one (by decide), pow_one, mul_one]
  intro n hn
  rw [BitVec.ofNat_eq_ofNat, BitVec.getLsbD_one]
  simp
  omega

/-- 256 squarings return the element `X`, by evaluation. -/
theorem iterate_fieldSquare_two : fieldSquare^[256] 2 = 2 := by decide +kernel

/-- If `n` squarings return `X`, they return every element. -/
theorem iterate_fieldSquare_of_two {n : Nat} (h : fieldSquare^[n] 2 = 2) (x : BitVec 256) :
    fieldSquare^[n] x = x := by
  have hX := poly_iterate_fieldSquare n 2
  rw [h, poly_two] at hX
  apply poly_injective
  rw [poly_iterate_fieldSquare, pow_two_pow_modByMonic_gf2 monic_fieldPoly hX.symm,
    poly_modByMonic_self]

/-- Settles O58: a polynomial squared `n` times is that polynomial in `X` squared `n` times, so it
is enough that 256 squarings return `X`. -/
theorem squaringReturnsSeed : Obligations.SquaringReturnsSeed := by
  intro x
  have h := pack_iterate_square 256 x
  rw [iterate_fieldSquare_of_two iterate_fieldSquare_two] at h
  exact Function.LeftInverse.injective unpack_pack (val4_injective h)

end Sys2Proof.Safety

/-! ## The host's operations, `WAIT` and `FIN` (R141 to R149) -/

namespace Sys2Proof

/-- A command is `RESET` when its strobe `rst` is 1, whatever the others are (R149). -/
theorem decodeHcmd_eq_reset_iff {w : BitVec 12} :
    decodeHcmd w = .ok .reset ↔ w &&& 0x800 = 0x800 := by
  obtain ⟨rst, start, opWr, opSel, v, rfl⟩ := exists_mkHcmd w
  rw [decodeHcmd_mkHcmd, show (0x800 : BitVec 12) = mkHcmd true false false false 0 from rfl,
    mkHcmd_and, mkHcmd_inj]
  split_ifs <;> simp_all

/-- A command is `START` when of the three strobes `start` alone is 1 (R142). -/
theorem decodeHcmd_eq_start_iff {w : BitVec 12} :
    decodeHcmd w = .ok .start ↔ w &&& 0xE00 = 0x400 := by
  obtain ⟨rst, start, opWr, opSel, v, rfl⟩ := exists_mkHcmd w
  rw [decodeHcmd_mkHcmd, mkHcmd_and_strobes,
    show (0x400 : BitVec 12) = mkHcmd false true false false 0 from rfl, mkHcmd_inj]
  split_ifs <;> simp_all

/-- An `OPWR` command, as a number (R79). -/
theorem mkHcmd_opwr_eq (opSel : Bool) (v : Byte) : mkHcmd false false true opSel v =
    BitVec.ofNat 12 ((if opSel then 0x300 else 0x200) + v.toNat) := by
  apply BitVec.eq_of_toNat_eq
  have hv := v.isLt
  simp only [mkHcmd, BitVec.toNat_append, Nat.shiftLeft_eq, Nat.mul_comm _ (2 ^ _),
    ← Nat.two_pow_add_eq_or_of_lt v.isLt]
  cases opSel <;> simp <;> omega

end Sys2Proof

namespace Sys2Proof.Machine

variable (s : State)

@[simp] theorem memRead_flagsBusy (sp : Space) (n : Fin 32) :
    memRead s.flagsBusy sp n = memRead s sp n := by
  cases sp <;> rfl

@[simp] theorem memRead_flagsDone (sp : Space) (n : Fin 32) :
    memRead s.flagsDone sp n = memRead s sp n := by
  cases sp <;> rfl

@[simp] theorem memRead_clearLens (sp : Space) (n : Fin 32) :
    memRead s.clearLens sp n = memRead s sp n := by
  cases sp <;> rfl

theorem resValid_eq_true_iff {s : State} : s.resValid = true ↔ s.done = true ∧ s.err = false := by
  simp [State.resValid]

theorem resValid_eq_false_iff {s : State} : s.resValid = false ↔ s.done = false ∨ s.err = true := by
  rw [← Bool.not_eq_true, resValid_eq_true_iff, not_and_or, Bool.not_eq_true, Bool.not_eq_false]

end Sys2Proof.Machine

namespace Sys2Proof.Safety
open Sys2Proof.Machine

/-! ### Operations that only touch control state -/

/-- Settles O9. -/
theorem waitAndHnopChangeNothing : Obligations.WaitAndHnopChangeNothing :=
  ⟨rfl, fun s => ⟨s, s, exec_wait s, rfl, exec_hnop s, rfl⟩⟩

/-- Settles O19. -/
theorem finEndsCall : Obligations.FinEndsCall :=
  ⟨rfl, fun s => ⟨_, exec_fin s, rfl, rfl, rfl, rfl, rfl, rfl, by simp [SameBytes], rfl, rfl, rfl,
    rfl⟩⟩

/-- Settles O20: of the data registers, which `RESET` leaves unspecified, nothing is used. -/
theorem resetClearsControl : Obligations.ResetClearsControl := by
  refine ⟨fun w => decodeHcmd_eq_reset_iff, fun s => ⟨_, exec_reset s, ?_⟩⟩
  simp [State.status, State.resValid, show seqIdle = 0 from rfl]

/-- Settles O21. -/
theorem startBeginsCall : Obligations.StartBeginsCall := by
  refine ⟨fun w => decodeHcmd_eq_start_iff, fun s hb => ?idle, fun s hb => ?busy⟩
  case idle =>
    refine ⟨_, exec_eq_next_iff.mpr (.start hb), rfl, rfl, rfl, rfl, rfl, ?_⟩
    simp [SameBytes, SameWords, SameLens]
  case busy => rw [exec_start, if_pos hb]

/-- A read changes no register of the hardware (R147, R148). -/
theorem setReply_frame (s : State) (r : Reply) : SameBytes s (s.setReply r) ∧
    SameWords s (s.setReply r) ∧ SameFlags s (s.setReply r) ∧ SameLens s (s.setReply r) ∧
    (s.setReply r).seq = s.seq := by
  simp [SameBytes, SameWords, SameFlags, SameLens]

/-- Settles O23: the guard is `RES_VALID`. -/
theorem resrdReturnsResult : Obligations.ResrdReturnsResult := by
  refine ⟨fun n s hd he => ?valid, fun n s h => ?invalid⟩
  case valid =>
    exact ⟨_, exec_eq_next_iff.mpr (.resrd (resValid_eq_true_iff.mpr ⟨hd, he⟩) n), rfl,
      setReply_frame s _⟩
  case invalid => rw [exec_resrd, resValid_eq_false_iff.mpr h]; rfl

/-- Settles O24. -/
theorem statrdReturnsFlags : Obligations.StatrdReturnsFlags :=
  fun s => ⟨_, exec_statrd s, rfl, setReply_frame s _⟩

/-- Settles O33: `BUSY` excludes `DONE`, and `ERR` needs it. -/
theorem reachableStatusValues : Obligations.ReachableStatusValues := by
  intro s h
  have hexcl := h.not_busy_done
  have hneed := h.err_done
  rw [State.status, State.resValid]
  cases hb : s.busy with
  | true =>
    have hd : s.done = false := by simpa [hb] using hexcl
    have he : s.err = false := by simpa [hd] using hneed
    simp [hd, he]
  | false =>
    cases hd : s.done with
    | true => cases s.err <;> simp
    | false =>
      have he : s.err = false := by simpa [hd] using hneed
      simp [he]

/-! ### `OPWR` -/

theorem exec_opwr_eq (o : Operand) (v : Byte) (s : State) : exec (opwr o v) s =
    if s.busy then .refused .opwrWhileBusy else .next (appendByte s o v) := by
  cases o <;> rfl

/-- Settles O22: appending a byte, by its index and by the counter. -/
theorem opwrAppendsByte : Obligations.OpwrAppendsByte := by
  refine ⟨fun v => ⟨congrArg Code.hcmd (mkHcmd_opwr_eq false v),
    congrArg Code.hcmd (mkHcmd_opwr_eq true v)⟩, fun o v s hb => ?idle, fun o v s hb => ?busy⟩
  case busy => rw [exec_opwr_eq, if_pos hb]
  case idle =>
    refine ⟨appendByte s o v, by rw [exec_opwr_eq, hb]; rfl, memRead_appendByte_same s o v,
      memRead_appendByte_other s o v, len_appendByte_same s o v,
      fun p => len_appendByte_other s v, ?_⟩
    simp [SameFlags, SameWords]

end Sys2Proof.Safety

/-! ## How far a call has come (R32, R187) -/

namespace Sys2Proof.Safety
open Sys2Proof.Machine

variable {s t u : State} {i : Instr}

/-- The turns that the sequencer still takes until a call is over, from the word in `SEQ`: by phase,
the 330 of the hardwired program (R187) less those before this word. -/
def turnsLeft (w : BitVec 12) : Nat :=
  if seqPhase w = phLoad then 330 - (seqS w).toNat
  else if seqPhase w = phComb then 326 - (5 * (seqK w).toNat + (seqS w).toNat)
  else if seqPhase w = phRed then 3 + (seqS w).toNat
  else if seqPhase w = phStore then 2 - (seqS w).toNat
  else 0

theorem turnsLeft_le (w : BitVec 12) : turnsLeft w ≤ 330 := by
  have hs := (seqS w).isLt
  unfold turnsLeft
  split_ifs <;> omega

section
variable (k : BitVec 6) (st : BitVec 3)

@[simp] theorem turnsLeft_comb :
    turnsLeft (mkSeq phComb k st) = 326 - (5 * k.toNat + st.toNat) := by
  simp [turnsLeft, phLoad, phComb]

@[simp] theorem turnsLeft_red : turnsLeft (mkSeq phRed k st) = 3 + st.toNat := by
  simp [turnsLeft, phLoad, phComb, phRed]

@[simp] theorem turnsLeft_store : turnsLeft (mkSeq phStore k st) = 2 - st.toNat := by
  simp [turnsLeft, phLoad, phComb, phRed, phStore]

end

/-! The turns left at the successors of the comb and the reducer. -/

theorem turnsLeft_seqAfterFold (k : Fin 64) (j : Fin 4) :
    turnsLeft (seqAfterFold k j) = 325 - (5 * k.val + j.val) := by
  simp [seqAfterFold]
  omega

theorem turnsLeft_seqAfterShl1 (k : Fin 64) :
    turnsLeft (seqAfterShl1 k) = 321 - 5 * k.val := by
  unfold seqAfterShl1
  split <;> simp <;> omega

theorem turnsLeft_seqAfterRfold (ss : Fin 4) :
    turnsLeft (seqAfterRfold ss) = 2 + ss.val := by
  unfold seqAfterRfold
  split <;> simp <;> omega

/-- Everything the sequencer's turn can do in a call: one turn fewer is left, the call goes on with
its operands and flags as they are; or `FIN` ends it; or `CHK` does. -/
inductive CallTurn (s : State) : State → Prop
  | goesOn {t : State} (hleft : turnsLeft t.seq + 1 = turnsLeft s.seq) (ho : SameOperands s t)
      (hf : SameFlags s t) : CallTurn s t
  | finished (hs : s.seq = seqFin) : CallTurn s ((s.flagsDone.clearLens).setSeq seqIdle)
  | rejected (hs : s.seq = seqChk) (hl : lengthsOk s = false) :
      CallTurn s (raise .invalidInputLength s)

/-- The sequencer's turn in a call is one of these. -/
theorem CallTurn.of_effect (h : Effect s i t) (hi : encode i = .seq s.seq) (hc : ControlInv s)
    (hb : s.busy = true) : CallTurn s t := by
  cases h with
  | wait =>
    have hidle := hc.busy_iff.mp hb
    rw [← Code.seq.inj hi, seqPhase_mkSeq] at hidle
    exact absurd rfl hidle
  | chkFail hl => exact .rejected (Code.seq.inj hi).symm hl
  | fin => exact .finished (Code.seq.inj hi).symm
  | chkPass | packa | packb | cinit | unpack =>
    refine .goesOn ?_ (by constructor <;> simp) (by simp [SameFlags])
    rw [← Code.seq.inj hi, State.setSeq_seq]
    decide
  | fold k j =>
    refine .goesOn ?_ (by constructor <;> simp) (by simp [SameFlags])
    rw [← Code.seq.inj hi, State.setSeq_seq, turnsLeft_seqAfterFold, turnsLeft_comb]
    simp
    omega
  | shl1 k =>
    refine .goesOn ?_ (by constructor <;> simp) (by simp [SameFlags])
    rw [← Code.seq.inj hi, State.setSeq_seq, turnsLeft_seqAfterShl1, turnsLeft_comb]
    simp
    omega
  | rfold ss =>
    refine .goesOn ?_ (by constructor <;> simp) (by simp [SameFlags])
    rw [← Code.seq.inj hi, State.setSeq_seq, turnsLeft_seqAfterRfold, turnsLeft_red]
    simp
    omega
  | reset | start | opwrA | opwrB | hnop | resrd | statrd => cases hi

/-! ### Every call ends (R158, R183) -/

/-- The sequencer alone ends a call within the turns that are left. -/
theorem exists_run_ended (hc : ControlInv s) (hb : s.busy = true) (hturns : s.turns = []) :
    ∃ n t, 1 ≤ n ∧ n ≤ turnsLeft s.seq ∧ run n s = .next t ∧ t.busy = false ∧ t.done = true ∧
      t.seq = 0x000 := by
  induction hn : turnsLeft s.seq using Nat.strong_induction_on generalizing s with
  | _ n ih =>
    obtain ⟨i, hi⟩ := exists_encode_of_seqLegal hc.seq_legal
    obtain ⟨t, ht⟩ := exists_effect_of_encode_seq hi s
    have hstep : step s = .next t :=
      (step_of_encode_seq hc.reset_seen hturns hi).trans (exec_eq_next_iff.mpr ht)
    have hrun : run 1 s = .next t := run_succ_of_next hstep
    cases CallTurn.of_effect ht hi hc hb with
    | finished hs => exact ⟨1, _, le_rfl, by rw [← hn, hs]; decide, hrun, rfl, rfl, rfl⟩
    | rejected hs => exact ⟨1, _, le_rfl, by rw [← hn, hs]; decide, hrun, rfl, rfl, rfl⟩
    | goesOn hleft ho hf =>
      obtain ⟨m, u, -, hle, hu, hend⟩ := ih _ (by omega) (stepKeepsControlInv s t hc hstep)
        (hf.1.trans hb) (ht.turns_eq.trans hturns) rfl
      exact ⟨m + 1, u, by omega, by omega, (run_succ_of_next hstep).trans hu, hend⟩

/-- Settles O42. -/
theorem everyCallTerminates : Obligations.EveryCallTerminates := by
  intro s hc hb hturns
  obtain ⟨n, t, hpos, hle, hend⟩ := exists_run_ended hc hb hturns
  exact ⟨n, t, hpos, hle.trans (turnsLeft_le _), hend⟩

end Sys2Proof.Safety

/-! ## A call among quiet turns of the host (R58, R151) -/

namespace Sys2Proof.Safety
open Sys2Proof.Machine

variable {s t u : State} {i : Instr}

/-! ### Quiet turns of the host -/

/-- A frame: every register of the hardware. -/
structure SameHardware (s t : State) : Prop extends LoadFrame s t, SameOperands s t where
  wasReset : t.wasReset = s.wasReset

theorem sameHardware_advance (s : State) : SameHardware s (advance s) := by
  constructor <;> constructor <;> simp [SameWords, SameFlags]

theorem sameHardware_setReply_advance (s : State) (r : Reply) :
    SameHardware s ((advance s).setReply r) := by
  constructor <;> constructor <;> simp [SameWords, SameFlags]

theorem ControlInv.of_hardware (h : ControlInv s) (hf : SameHardware s t) : ControlInv t := by
  obtain ⟨hbusy, hdone, herr⟩ := hf.flags
  exact h.of_same ⟨hbusy, hdone, herr, hf.lena, hf.lenb, hf.wasReset⟩ hf.seq

theorem CallInv.of_hardware (h : CallInv s) (hf : SameHardware s t) : CallInv t := by
  obtain ⟨ha, hb, hsb, hc⟩ := hf.words
  obtain ⟨hbusy, -⟩ := hf.flags
  exact h.of_same hf.opa hf.opb ha hb hsb hc hf.res hbusy hf.seq

theorem lengthsOk_eq_of_sameOperands (h : SameOperands s t) : lengthsOk t = lengthsOk s := by
  rw [lengthsOk, lengthsOk, h.lena, h.lenb]

/-- A quiet turn of the host is taken in every state and changes no register. -/
theorem step_of_quiet_host {v : Turn} {rest : List Turn} (hr : s.wasReset = true)
    (hs : s.turns = v :: rest) (hv : quietTurn v = true) (hne : v ≠ .sequencer) :
    ∃ t, step s = .next t ∧ t.turns = rest ∧ SameHardware s t := by
  have hrest : (advance s).turns = rest := by rw [advance_turns, hs]; rfl
  cases v with
  | sequencer => exact absurd rfl hne
  | hrd n => cases hv
  | hcmd w =>
    have hw : decodeHcmd w = .ok .hnop := by simpa [quietTurn] using hv
    exact ⟨_, step_of_effect hr (issued_of_hcmd hs ▸ hw) .hnop, hrest, sameHardware_advance s⟩
  | hstat =>
    exact ⟨_, step_of_effect hr (issued_of_hstat hs ▸ rfl) .statrd, hrest,
      sameHardware_setReply_advance s _⟩

/-- The sequencer's turn is taken in every state with a legal word: the micro-operation of that
word. -/
theorem step_of_sequencer {rest : List Turn} (h : ControlInv s)
    (hs : s.turns = .sequencer :: rest) :
    ∃ i t, encode i = .seq s.seq ∧ Effect (advance s) i t ∧ step s = .next t ∧ t.turns = rest := by
  obtain ⟨i, hi⟩ := exists_encode_of_seqLegal h.seq_legal
  obtain ⟨t, ht⟩ := exists_effect_of_encode_seq hi (advance s)
  refine ⟨i, t, hi, ht, step_of_effect h.reset_seen ?_ ht, ?_⟩
  · exact issued_of_sequencer hs ▸ decodeSeq_of_encode hi
  · rw [ht.turns_eq, advance_turns, hs]; rfl

/-- A property of the registers that counts the sequencer's turns, carried along a run of quiet
turns. -/
theorem run_quiet {R : Nat → State → Prop}
    (hhost : ∀ {n s t}, R n s → SameHardware s t → R n t)
    (hseq : ∀ {n s t i}, ControlInv s → R n s → encode i = .seq s.seq → Effect s i t → R (n + 1) t)
    {n : Nat} {ts : List Turn} (hc : ControlInv s) (hR : R n s) (hs : s.turns = ts)
    (hts : ∀ v ∈ ts, quietTurn v = true) :
    ∃ t, run ts.length s = .next t ∧ ControlInv t ∧ R (n + ts.count .sequencer) t := by
  induction ts generalizing n s with
  | nil => exact ⟨s, rfl, hc, hR⟩
  | cons v ts ih =>
    have hrest : ∀ w ∈ ts, quietTurn w = true := fun w hw => hts w (List.mem_cons_of_mem _ hw)
    by_cases hv : v = .sequencer
    · subst hv
      obtain ⟨i, u, hi, hx, hstep, hu⟩ := step_of_sequencer hc hs
      have hRu : R (n + 1) u := hseq hc.advance (hhost hR (sameHardware_advance s)) hi hx
      obtain ⟨t, hrun, hct, hRt⟩ := ih (stepKeepsControlInv s u hc hstep) hRu hu hrest
      refine ⟨t, (run_succ_of_next hstep).trans hrun, hct, ?_⟩
      rwa [List.count_cons_self, Nat.add_comm _ 1, ← Nat.add_assoc]
    · obtain ⟨u, hstep, hu, hf⟩ := step_of_quiet_host hc.reset_seen hs
        (hts v List.mem_cons_self) hv
      obtain ⟨t, hrun, hct, hRt⟩ := ih (hc.of_hardware hf) (hhost hR hf) hu hrest
      refine ⟨t, (run_succ_of_next hstep).trans hrun, hct, ?_⟩
      rwa [List.count_cons_of_ne hv]

/-! ### From the loading to `START` -/

/-- `Started s ts t`: in `t` the turns `ts` of a loading from `s` and a `START` have been taken. -/
structure Started (s : State) (ts : List Turn) (t : State) : Prop where
  control : ControlInv t
  call : CallInv t
  operand : ∀ o, OperandHolds s o (operandBytes o ts) t
  busy : t.busy = true
  done : t.done = false
  err : t.err = false
  seq : t.seq = seqChk
  res : t.res = s.res
  words : SameWords s t

/-- `START` after the loading is taken. -/
theorem Loaded.start {ts post : List Turn} {v : Turn} (h : Loaded s ts t) (hb : s.busy = false)
    (hs : t.turns = v :: post) (hv : startTurn v = true) :
    ∃ u, step t = .next u ∧ u.turns = post ∧ Started s ts u := by
  obtain ⟨hbusy, -⟩ := h.frame.flags
  cases v with
  | sequencer | hrd | hstat => cases hv
  | hcmd w =>
    have hw : decodeHcmd w = .ok .start := by simpa [startTurn] using hv
    have hstep := step_of_effect h.control.reset_seen (issued_of_hcmd hs ▸ hw)
      (.start (s := advance t) (hbusy.trans hb))
    refine ⟨_, hstep, by rw [State.setSeq_turns, State.flagsBusy_turns, advance_turns, hs]; rfl, ?_⟩
    exact {
      control := stepKeepsControlInv _ _ h.control hstep
      call := stepKeepsCallInv _ _ h.control (.of_not_busy (hbusy.trans hb)) hstep
      operand := fun o => (h.operand o).of_same (by cases o <;> rfl) (by simp)
      busy := rfl
      done := rfl
      err := rfl
      seq := rfl
      res := h.frame.res
      words := h.frame.words }

/-- The loading and the `START` of a call. -/
theorem exists_started {ts post : List Turn} {v : Turn} (h : ControlInv s) (hb : s.busy = false)
    (ha : s.lena = 0) (hl : s.lenb = 0) (hs : s.turns = ts ++ v :: post)
    (hts : ∀ w ∈ ts, loadTurn w = true) (hv : startTurn v = true) :
    ∃ t, run (ts.length + 1) s = .next t ∧ t.turns = post ∧ Started s ts t := by
  obtain ⟨t, hrun, hturns, hload⟩ := exists_loaded h hb ha hl hs hts
  obtain ⟨u, hstep, hpost, hu⟩ := hload.start hb hturns hv
  exact ⟨u, by rw [run_add_of_next hrun, run_succ_of_next hstep, run_zero], hpost, hu⟩

/-- An operand's counter is 32 just when 32 bytes were appended to it. -/
theorem OperandHolds.len_eq_iff {o : Operand} {bs : List Byte} (h : OperandHolds s o bs t) :
    t.len o = 32 ↔ bs.length = 32 := by
  have hlen := h.len
  rw [← BitVec.toNat_inj, hlen, show (32 : BitVec 6).toNat = 32 from rfl]
  omega

/-- 32 bytes appended to an operand are its buffer. -/
theorem OperandHolds.buffer_eq {o : Operand} {bs : List Byte} (h : OperandHolds s o bs t)
    (hlen : bs.length = 32) : t.buffer (operandSpace o) = bufferOf bs := by
  apply Vector.ext
  intro n hn
  have hbyte := h.bytes ⟨n, hn⟩
  have hsome : bs[n]? = some bs[n] := List.getElem?_eq_getElem (by omega)
  rw [hsome] at hbyte
  rw [bufferOf, Vector.getElem_ofFn, List.getD_eq_getElem?_getD, hsome]
  exact hbyte

theorem Started.lengthsOk_iff {ts : List Turn} (h : Started s ts t) : lengthsOk t = true ↔
    (operandBytes .a ts).length = 32 ∧ (operandBytes .b ts).length = 32 := by
  rw [Safety.lengthsOk_iff, ← (h.operand .a).len_eq_iff, ← (h.operand .b).len_eq_iff]
  rfl

/-! ### From `START` to the end of the call -/

/-- No call is in progress: the last one has ended with this flag `ERR` and this result. -/
structure CallEnded (e : Bool) (r : Buf32) (t : State) : Prop where
  busy : t.busy = false
  done : t.done = true
  err : t.err = e
  lena : t.lena = 0
  lenb : t.lenb = 0
  seq : t.seq = seqIdle
  res : t.res = r

theorem CallEnded.of_hardware {e : Bool} {r : Buf32} (h : CallEnded e r s) (hf : SameHardware s t) :
    CallEnded e r t := by
  obtain ⟨hbusy, hdone, herr⟩ := hf.flags
  exact ⟨hbusy.trans h.busy, hdone.trans h.done, herr.trans h.err, hf.lena.trans h.lena,
    hf.lenb.trans h.lenb, hf.seq.trans h.seq, hf.res.trans h.res⟩

/-- A sequencer word is the code of one micro-operation only. -/
theorem eq_of_encode {j : Instr} {w : BitVec 12} (hi : encode i = .seq w) (hj : encode j = .seq w) :
    i = j :=
  Except.ok.inj ((decodeSeq_of_encode hi).symm.trans (decodeSeq_of_encode hj))

/-- An idle sequencer waits. -/
theorem eq_of_effect_idle (h : Effect s i t) (hi : encode i = .seq s.seq) (hs : s.seq = seqIdle) :
    t = s := by
  obtain rfl : i = .wait := eq_of_encode hi (hs ▸ rfl)
  cases h
  rfl

/-- In a call the sequencer has a turn left. -/
theorem turnsLeft_pos (hc : ControlInv s) (hb : s.busy = true) : 0 < turnsLeft s.seq := by
  obtain ⟨i, hi⟩ := exists_encode_of_seqLegal hc.seq_legal
  obtain ⟨t, ht⟩ := exists_effect_of_encode_seq hi s
  cases CallTurn.of_effect ht hi hc hb with
  | goesOn hleft => omega
  | finished hs | rejected hs => rw [hs]; decide

/-- `InCall x y n t`: of the call with the operands `x` and `y` the sequencer has taken `n` turns,
and more are left. -/
structure InCall (x y : Buf32) (n : Nat) (t : State) : Prop where
  call : CallInv t
  busy : t.busy = true
  done : t.done = false
  err : t.err = false
  lens : lengthsOk t = true
  opa : t.opa = x
  opb : t.opb = y
  left : turnsLeft t.seq + n = 330

/-- `CallAt x y n t`: the call with the operands `x` and `y` after `n` turns of the sequencer, in
progress or over. -/
inductive CallAt (x y : Buf32) (n : Nat) (t : State) : Prop
  | running (h : InCall x y n t)
  | ended (hn : 330 ≤ n) (h : CallEnded false (mulBuf x y) t)

variable {x y : Buf32} {n : Nat}

theorem CallAt.of_hardware (h : CallAt x y n s) (hf : SameHardware s t) : CallAt x y n t := by
  obtain ⟨hbusy, hdone, herr⟩ := hf.flags
  cases h with
  | ended hn h => exact .ended hn (h.of_hardware hf)
  | running h =>
    exact .running {
      call := h.call.of_hardware hf
      busy := hbusy.trans h.busy
      done := hdone.trans h.done
      err := herr.trans h.err
      lens := (lengthsOk_eq_of_sameOperands hf.toSameOperands).trans h.lens
      opa := hf.opa.trans h.opa
      opb := hf.opb.trans h.opb
      left := hf.seq.symm ▸ h.left }

/-- The sequencer's turn in a call with well-sized operands. -/
theorem InCall.turn (h : InCall x y n s) (hc : ControlInv s) (hi : encode i = .seq s.seq)
    (hx : Effect s i t) : CallAt x y (n + 1) t := by
  have hleft := h.left
  cases CallTurn.of_effect hx hi hc h.busy with
  | rejected hs hl => exact absurd (hl.symm.trans h.lens) (by decide)
  | finished hs =>
    rw [hs, show turnsLeft seqFin = 1 by decide] at hleft
    have hres : s.res = mulBuf x y := h.opa ▸ h.opb ▸ h.call.unpacked h.busy hs
    exact .ended (by omega) ⟨rfl, rfl, h.err, rfl, rfl, rfl, hres⟩
  | goesOn hone ho hf =>
    obtain ⟨hbusy, hdone, herr⟩ := hf
    exact .running {
      call := h.call.effect hc (fun w hw => Code.seq.inj (hi.symm.trans hw)) hx
      busy := hbusy.trans h.busy
      done := hdone.trans h.done
      err := herr.trans h.err
      lens := (lengthsOk_eq_of_sameOperands ho).trans h.lens
      opa := ho.opa.trans h.opa
      opb := ho.opb.trans h.opb
      left := by omega }

/-- The sequencer's turn during the call or after it. -/
theorem CallAt.turn (hc : ControlInv s) (h : CallAt x y n s) (hi : encode i = .seq s.seq)
    (hx : Effect s i t) : CallAt x y (n + 1) t := by
  cases h with
  | running h => exact h.turn hc hi hx
  | ended hn h => exact eq_of_effect_idle hx hi h.seq ▸ .ended (by omega) h

/-- A call with two operands of 32 bytes begins. -/
theorem Started.callAt {ts : List Turn} (h : Started s ts t)
    (ha : (operandBytes .a ts).length = 32) (hb : (operandBytes .b ts).length = 32) :
    CallAt (bufferOf (operandBytes .a ts)) (bufferOf (operandBytes .b ts)) 0 t :=
  .running {
    call := h.call
    busy := h.busy
    done := h.done
    err := h.err
    lens := h.lengthsOk_iff.mpr ⟨ha, hb⟩
    opa := (h.operand .a).buffer_eq ha
    opb := (h.operand .b).buffer_eq hb
    left := by rw [h.seq]; decide }

/-- Settles O40: the call is in progress while turns of the program are left. -/
theorem callComputesProduct : Obligations.CallComputesProduct := by
  intro s ts post u hc hb ha hl hs hts hu hpost hla hlb
  obtain ⟨t, hrun, hturns, hstart⟩ := exists_started hc hb ha hl hs hts hu
  obtain ⟨t', hrun', hc', hat⟩ := run_quiet (R := CallAt _ _) CallAt.of_hardware CallAt.turn
    hstart.control (hstart.callAt hla hlb) hturns hpost
  have htotal := (run_add_of_next hrun).trans hrun'
  rw [Nat.zero_add] at hat
  cases hat with
  | running h =>
    have hpos := turnsLeft_pos hc' h.busy
    have hleft := h.left
    exact ⟨fun _ => ⟨t', htotal, h.busy, h.done⟩, fun hcount => by omega⟩
  | ended hn h =>
    refine ⟨fun hcount => by omega, fun _ => ⟨t', htotal, h.busy, h.done, h.err, h.lena, h.lenb,
      h.seq, ?_⟩⟩
    rw [h.res]
    exact if_pos ⟨hla, hlb⟩

/-! ### A call with a wrong length -/

/-- `RejectedAt s n t`: a call with a wrong length after `n` turns of the sequencer, with the result
and the word registers as in `s`: about to check the lengths, or ended by the exception. -/
inductive RejectedAt (s : State) (n : Nat) (t : State) : Prop
  | waiting (hn : n = 0) (hb : t.busy = true) (hd : t.done = false) (hs : t.seq = seqChk)
      (hl : lengthsOk t = false) (hres : t.res = s.res) (hw : SameWords s t)
  | ended (hn : 1 ≤ n) (h : CallEnded true s.res t) (hw : SameWords s t)

theorem sameWords_trans (h : SameWords s t) (h' : SameWords t u) : SameWords s u := by
  obtain ⟨ha, hb, hsb, hc⟩ := h
  obtain ⟨ha', hb', hsb', hc'⟩ := h'
  exact ⟨ha'.trans ha, hb'.trans hb, hsb'.trans hsb, hc'.trans hc⟩

theorem RejectedAt.of_hardware (h : RejectedAt s n t) (hf : SameHardware t u) :
    RejectedAt s n u := by
  obtain ⟨hbusy, hdone, -⟩ := hf.flags
  cases h with
  | ended hn h hw => exact .ended hn (h.of_hardware hf) (sameWords_trans hw hf.words)
  | waiting hn hb hd hs hl hres hw =>
    exact .waiting hn (hbusy.trans hb) (hdone.trans hd) (hf.seq.trans hs)
      ((lengthsOk_eq_of_sameOperands hf.toSameOperands).trans hl) (hf.res.trans hres)
      (sameWords_trans hw hf.words)

/-- The sequencer's first turn raises the exception; the later ones wait. -/
theorem RejectedAt.turn (h : RejectedAt s n t) (hi : encode i = .seq t.seq) (hx : Effect t i u) : RejectedAt s (n + 1) u := by
  cases h with
  | ended hn h hw => exact eq_of_effect_idle hx hi h.seq ▸ .ended (by omega) h hw
  | waiting hn hb hd hs hl hres hw =>
    obtain rfl : i = .chk := eq_of_encode hi (hs ▸ rfl)
    cases hx with
    | chkPass hl' => exact absurd (hl.symm.trans hl') (by decide)
    | chkFail => exact .ended (by omega) ⟨rfl, rfl, rfl, rfl, rfl, rfl, hres⟩ hw

/-- `multiply` rejects just the lengths that `CHK` rejects. -/
theorem multiply_eq_error_iff {x y : List Byte} :
    multiply x y = .error .invalidInputLength ↔ ¬(x.length = 32 ∧ y.length = 32) := by
  unfold multiply
  split <;> simp_all

/-- Settles O41: the lengths that `multiply` rejects are those that `CHK` rejects. -/
theorem wrongLengthEndsCall : Obligations.WrongLengthEndsCall := by
  intro s ts post u hc hb ha hl hs hts hu hpost herr
  obtain ⟨t, hrun, hturns, hstart⟩ := exists_started hc hb ha hl hs hts hu
  have hbad : lengthsOk t = false :=
    Bool.eq_false_iff.mpr fun hok => multiply_eq_error_iff.mp herr (hstart.lengthsOk_iff.mp hok)
  obtain ⟨t', hrun', -, hat⟩ := run_quiet (R := RejectedAt s) RejectedAt.of_hardware
    (fun _ => RejectedAt.turn) hstart.control
    (.waiting rfl hstart.busy hstart.done hstart.seq hbad hstart.res hstart.words) hturns hpost
  have htotal := (run_add_of_next hrun).trans hrun'
  rw [Nat.zero_add] at hat
  cases hat with
  | waiting hn hb hd => exact ⟨fun _ => ⟨t', htotal, hb, hd⟩, fun hcount => by omega⟩
  | ended hn h hw =>
    exact ⟨fun hcount => by omega, fun _ => ⟨t', htotal, h.busy, h.done, h.err, h.lena, h.lenb,
      h.seq, h.res, hw⟩⟩

end Sys2Proof.Safety

/-! ## Exceptions and refusals (R160 to R167, R184) -/

namespace Sys2Proof

/-- Only `start` with `op_wr` keeps a command from decoding (R80 (b)). -/
theorem strobes_of_decodeHcmd_error {w : BitVec 12} {r : Reject} (h : decodeHcmd w = .error r) :
    r = .startAndOpwr ∧ w.getLsbD 11 = false ∧ w.getLsbD 10 = true ∧ w.getLsbD 9 = true := by
  obtain ⟨rst, start, opWr, opSel, v, rfl⟩ := exists_mkHcmd w
  rw [getLsbD_mkHcmd_rst, getLsbD_mkHcmd_start, getLsbD_mkHcmd_opWr]
  rw [decodeHcmd_mkHcmd] at h
  split_ifs at h
  simp_all

end Sys2Proof

namespace Sys2Proof.Machine

@[simp] theorem memRead_raise (s : State) (e : Exception) (sp : Space) (n : Fin 32) :
    memRead (raise e s) sp n = memRead s sp n := by
  cases e; cases sp <;> rfl

/-- `Refuses s i r`: operation `i`, its guard being violated in `s`, is refused by the name `r`. One
constructor for each guard (R184). -/
inductive Refuses (s : State) : Instr → Refusal → Prop
  | start (hb : s.busy = true) : Refuses s .start .startWhileBusy
  | opwrA (hb : s.busy = true) (v : Byte) : Refuses s (.opwrA v) .opwrWhileBusy
  | opwrB (hb : s.busy = true) (v : Byte) : Refuses s (.opwrB v) .opwrWhileBusy
  | resrd (hv : s.resValid = false) (n : Fin 32) : Refuses s (.resrd n) .resultNotValid

/-- The relation is `exec`, as `Effect` is for the next state. -/
theorem exec_eq_refused_iff {i : Instr} {s : State} {r : Refusal} :
    exec i s = .refused r ↔ Refuses s i r := by
  constructor
  · intro h
    cases i with
    | start =>
      rw [exec_start] at h
      split at h <;> cases h
      exact .start ‹_›
    | opwrA v =>
      rw [exec_opwrA] at h
      split at h <;> cases h
      exact .opwrA ‹_› v
    | opwrB v =>
      rw [exec_opwrB] at h
      split at h <;> cases h
      exact .opwrB ‹_› v
    | resrd n =>
      rw [exec_resrd] at h
      split at h <;> cases h
      exact .resrd (by simp_all) n
    | _ => cases h
  · intro h
    cases h with
    | start hb => rw [exec_start, if_pos hb]
    | opwrA hb v => rw [exec_opwrA, if_pos hb]
    | opwrB hb v => rw [exec_opwrB, if_pos hb]
    | resrd hv n => rw [exec_resrd, hv]; rfl

/-- After the first `RESET` a turn whose code is an operation is taken, or refused by that
operation's guard. -/
theorem step_next_or_refused {s : State} {i : Instr} (hm : s.wasReset = true)
    (hi : decode (issued s) = .ok i) :
    (∃ t, step s = .next t) ∨ ∃ r, Refuses (advance s) i r ∧ step s = .refused r := by
  rw [step_of_decode (mayTake_of_wasReset hm) hi]
  cases hx : exec i (advance s) with
  | next t => exact .inl ⟨t, rfl⟩
  | fault f => exact absurd hx (exec_not_fault _ i f)
  | refused r => exact .inr ⟨r, exec_eq_refused_iff.mp hx, rfl⟩

end Sys2Proof.Machine

namespace Sys2Proof.Safety
open Sys2Proof.Machine

variable {s : State}

/-- An `OPWR` command has of the three strobes `op_wr` alone (R141). -/
theorem strobes_of_decodeHcmd_opwr {w : BitVec 12} {o : Operand} {v : Byte}
    (h : decodeHcmd w = .ok (opwr o v)) : w &&& 0xE00 = 0x200 := by
  obtain ⟨rst, start, opWr, opSel, x, rfl⟩ := exists_mkHcmd w
  rw [mkHcmd_and_strobes, show (0x200 : BitVec 12) = mkHcmd false false true false 0 from rfl,
    mkHcmd_inj]
  rw [decodeHcmd_mkHcmd] at h
  cases o <;> split_ifs at h <;> simp_all [opwr]

/-- Settles O10: the two ways `CHK` answers a next state. -/
theorem chkChecksLengths : Obligations.ChkChecksLengths := by
  refine ⟨rfl, fun s => ?_⟩
  cases hl : lengthsOk s with
  | true =>
    refine ⟨_, exec_eq_next_iff.mpr (.chkPass hl), ?_⟩
    rw [if_pos (lengthsOk_iff.mp hl)]
    exact ⟨⟨rfl, ⟨rfl, rfl, rfl⟩, rfl, rfl⟩, memRead_setSeq s _, rfl, rfl, rfl, rfl⟩
  | false =>
    have hbad : ¬(s.lena = 32 ∧ s.lenb = 32) := fun h => by simp [lengthsOk_iff.mpr h] at hl
    refine ⟨_, exec_eq_next_iff.mpr (.chkFail hl), ?_⟩
    rw [if_neg hbad]
    exact ⟨⟨rfl, rfl, rfl, rfl, rfl, rfl, rfl, rfl⟩, memRead_raise s _, rfl, rfl, rfl, rfl⟩

/-- The sequencer's turn is never refused: its word is legal and a micro-operation has no guard. -/
theorem exists_step_of_sequencersTurn (h : ControlInv s) (hturn : sequencersTurn s) :
    ∃ t, step s = .next t := by
  obtain ⟨t, ht, -⟩ := sequencerFollowsTable s h.reset_seen hturn h.seq_legal
  exact ⟨t, ht⟩

/-- Settles O35, by whose turn it is: a command may carry both strobes or violate its operation's
guard, `RESRD` only the latter, and `STATRD` has no guard. -/
theorem onlyProtocolViolationsStop : Obligations.OnlyProtocolViolationsStop := by
  intro s h
  cases hs : s.turns with
  | nil => exact .inl (exists_step_of_sequencersTurn h (.inl hs))
  | cons v rest =>
    cases v with
    | sequencer => exact .inl (exists_step_of_sequencersTurn h (.inr ⟨rest, hs⟩))
    | hcmd w =>
      cases hd : decodeHcmd w with
      | error e =>
        obtain ⟨-, hrst, hstart, hwr⟩ := strobes_of_decodeHcmd_error hd
        exact .inr (.inl ⟨w, rest, rfl, hrst, hstart, hwr,
          illegalCodesStop.2 s w rest h.reset_seen hs hrst hstart hwr⟩)
      | ok i =>
        have hi : decode (issued s) = .ok i := issued_of_hcmd hs ▸ hd
        obtain hnext | ⟨r, hr, hstep⟩ := step_next_or_refused h.reset_seen hi
        · exact .inl hnext
        · cases hr with
          | start hb =>
            exact .inr (.inr (.inl ⟨w, rest, rfl, decodeHcmd_eq_start_iff.mp hd, hb, hstep⟩))
          | opwrA hb x =>
            exact .inr (.inr (.inr (.inl
              ⟨w, rest, rfl, strobes_of_decodeHcmd_opwr (o := .a) hd, hb, hstep⟩)))
          | opwrB hb x =>
            exact .inr (.inr (.inr (.inl
              ⟨w, rest, rfl, strobes_of_decodeHcmd_opwr (o := .b) hd, hb, hstep⟩)))
          | resrd hv n =>
            obtain ⟨_, hcode⟩ := encode_of_decodeHcmd hd
            cases hcode
    | hrd n =>
      have hd : decode (issued s) = .ok (.resrd n.toFin) := issued_of_hrd hs ▸ rfl
      obtain hnext | ⟨r, hr, hstep⟩ := step_next_or_refused h.reset_seen hd
      · exact .inl hnext
      · cases hr with
        | resrd hv _ => exact .inr (.inr (.inr (.inr ⟨n, rest, rfl, hv, hstep⟩)))
    | hstat =>
      exact .inl ⟨_, step_of_effect h.reset_seen (issued_of_hstat hs ▸ rfl) .statrd⟩

end Sys2Proof.Safety

/-! ## Before the first `RESET` (R149, R181) -/

namespace Sys2Proof

/-- With its strobe `rst` a command decodes to `RESET`, which no other strobe can prevent (R149). -/
theorem decodeHcmd_of_rst {w : BitVec 12} (h : w.getLsbD 11 = true) :
    decodeHcmd w = .ok .reset := by
  rw [← mkHcmd_fields w, h, decodeHcmd_mkHcmd]
  rfl

end Sys2Proof

namespace Sys2Proof.Machine

variable {s : State}

/-- The code acted on is a `RESET` only in a turn of the host whose command has the strobe `rst`. -/
theorem isReset_issued_iff :
    isReset (issued s) = true ↔ ∃ w rest, s.turns = .hcmd w :: rest ∧ w.getLsbD 11 = true := by
  constructor
  · intro h
    cases hs : s.turns with
    | nil => rw [issued_of_nil hs] at h; cases h
    | cons v rest =>
      cases v with
      | sequencer => rw [issued_of_sequencer hs] at h; cases h
      | hcmd w => rw [issued_of_hcmd hs] at h; exact ⟨w, rest, rfl, h⟩
      | hrd n => rw [issued_of_hrd hs] at h; cases h
      | hstat => rw [issued_of_hstat hs] at h; cases h
  · rintro ⟨w, rest, hs, hw⟩
    rw [issued_of_hcmd hs]
    exact hw

/-- A turn that may not be taken is refused by the name of R181. -/
theorem step_of_not_mayTake (h : mayTake s = false) : step s = .refused .beforeReset := by
  simp [step, h]

/-- A `RESET` command is performed in every state (R149, R180). -/
theorem step_of_reset_hcmd {w : BitVec 12} {rest : List Turn} (h : s.turns = .hcmd w :: rest)
    (hw : w.getLsbD 11 = true) :
    step s = .next (scrambleData (resetControl (advance s))).markReset :=
  (step_of_decode (mayTake_of_reset_hcmd h hw) (issued_of_hcmd h ▸ decodeHcmd_of_rst hw)).trans
    (exec_reset _)

end Sys2Proof.Machine

namespace Sys2Proof.Safety
open Sys2Proof.Machine

/-- Settles O8: before the first `RESET` a turn may be taken only if its code is a `RESET`. -/
theorem beforeResetOnlyReset : Obligations.BeforeResetOnlyReset := by
  intro s hr
  by_cases hreset : ∃ w rest, s.turns = .hcmd w :: rest ∧ w.getLsbD 11 = true
  · obtain ⟨w, rest, hs, hw⟩ := hreset
    exact .inl ⟨_, step_of_reset_hcmd hs hw, State.markReset_wasReset _, w, rest, hs, hw⟩
  · have hmay : mayTake s = false := by
      rw [mayTake, hr, Bool.false_or, Bool.eq_false_iff, ne_eq, isReset_issued_iff]
      exact hreset
    exact .inr ⟨step_of_not_mayTake hmay, hreset⟩

end Sys2Proof.Safety
